-- ==== Sys2Proof/Word.lean ====
section
/-! DEFINITION. The word types of the spec's notation (`00_scope.md` section 5). -/

namespace Sys2Proof

/-- `byte`: 8 bits. -/
abbrev Byte := BitVec 8

/-- `u64`. -/
abbrev U64 := BitVec 64

/-- `u32`. -/
abbrev U32 := BitVec 32

end Sys2Proof
end

