-- ==== Sys2Proof/Config.lean ====
section
/-! DEFINITION. What an implementation fixes (`00_scope.md` section 4) and the free values, whose
constants have no body: no proof can know what they are. -/

namespace Sys2Proof

/-- The open parameters of `00_scope.md` section 4. The spec gives none of them a value
(`93_implementation_defined.md` U15), so they are data: a statement about every state is a statement
about every value of them. -/
structure Params where
  /-- `CMD_BUFFER_SIZE`, written `N`: slots of the ring. -/
  cmdBufferSize : Nat
  /-- `PAYLOAD_MAX`: bytes of a frame's payload. -/
  payloadMax : Nat
  /-- `NUM_CONSUMERS`: consumer ports. -/
  numConsumers : Nat
  /-- `POLL_MAX_MS`: upper bound of one sleep. -/
  pollMaxMs : Nat
  /-- `HANDLE_BITS`: width of a transport handle. -/
  handleBits : Nat
deriving DecidableEq, Repr

/-- The constraints of rule R4. -/
abbrev Params.Valid (p : Params) : Prop :=
  1 ≤ p.cmdBufferSize ∧ 1 ≤ p.numConsumers ∧ 1 ≤ p.pollMaxMs ∧ 1 ≤ p.handleBits ∧ p.handleBits ≤ 64

/-- `FRAME_BYTES` (rule R5): `command_id`, three argument words, the payload, no padding. -/
def Params.frameBytes (p : Params) : Nat := 8 + 3 * 8 + p.payloadMax

/-- `FRAME_BITS`: the width of a frame-wide bus. -/
def Params.frameBits (p : Params) : Nat := 8 * p.frameBytes

/-- `PTR_MOD`: the modulus of `head` and `tail`. -/
def Params.ptrMod (p : Params) : Nat := 2 * p.cmdBufferSize

/-- `PTR_BITS`: the least width that holds every value below `PTR_MOD`, at least 1. -/
def Params.ptrBits (p : Params) : Nat := max 1 (Nat.clog 2 p.ptrMod)

/-- The bytes of the slot space (rule R40). -/
def Params.slotSpace (p : Params) : Nat := p.cmdBufferSize * p.frameBytes

/-- The parameter set of `95_test_vectors.md` section 0.
DESIGN CHOICE (log 1): State.reset is given this set, because the spec values no parameter. -/
def Params.vectors : Params :=
  { cmdBufferSize := 4, payloadMax := 4, numConsumers := 2, pollMaxMs := 50, handleBits := 8 }

/-- What WAIT_FOREVER writes into `timeout[c]` ("an unspecified value", rule R105): a free value, one
for each draw (log 8). -/
opaque Config.foreverTimeout : Nat → U32

/-- The length of a sleep before its bound is applied (rule R103): a free value, one for each draw
(log 9). -/
opaque Config.sleepLength : Nat → Nat

/-- The `count` field of the status view for a count that 32 bits cannot hold (rule R73 zero-extends it
to 32 bits and states nothing then): a free value (log 12). -/
opaque Config.wideCount : Nat → U32

/-- PEEK's `V` for a position that 64 bits cannot hold (rule R85): a free value (log 12). -/
opaque Config.widePosition : Nat → U64

end Sys2Proof
end

