-- ==== Sys2Proof/Syntax.lean ====
section
/-! DEFINITION. Frames, the port operations (one constructor of `Instr` for each row of
`spec/opcode_table.json`), the words the ports carry, and what the environment presents. -/

namespace Sys2Proof

/-- A Command Frame (rule R10): opaque to the block but for `commandId`, which matching compares. -/
structure Frame where
  commandId : U64
  /-- `arguments[0]` -/
  arg0 : U64
  /-- `arguments[1]` -/
  arg1 : U64
  /-- `arguments[2]` -/
  arg2 : U64
  /-- `payload`, `PAYLOAD_MAX` bytes in wire order. -/
  payload : List Byte
deriving DecidableEq, Repr

/-- The port operations. `c` is the number of the consumer whose port carries the request: rule R167
divides the operations by port, and an operation is a step of that port's agent. -/
inductive Instr where
  /-- NOP, rule R88. -/
  | nop (c : Nat)
  /-- PEEK, rule R85: `id` is the command identifier. -/
  | peek (c : Nat) (id : U64)
  /-- POP_AT, rule R86: `a` is the pending position. -/
  | popAt (c : Nat) (a : U64)
  /-- CLEAR, rule R87. -/
  | clear (c : Nat)
  /-- WAIT_FOR, rule R100: `t` is the timeout in milliseconds. -/
  | waitFor (c : Nat) (id : U64) (t : U32)
  /-- WAIT_FOREVER, rule R105. -/
  | waitForever (c : Nat) (id : U64)
  /-- SEND, rule R126: the frame on `C_WDATA`. -/
  | send (c : Nat) (f : Frame)
  /-- STATUS, rule R89. -/
  | status (c : Nat)
  /-- RX_FRAME, rule R121: the frame on `P_DATA`. -/
  | rxFrame (f : Frame)
  /-- RX_ERROR, rule R123. -/
  | rxError
  /-- KNOP, rule R88. -/
  | knop
  /-- RECONNECT, rule R125: `h` is the 64-bit field `H`, of which rule R71 takes the handle. -/
  | reconnect (h : U64)
deriving DecidableEq, Repr

/-- What one port carries when its `VALID` is 1: the request word or event code, and the frame-wide data
bus as the number on its wires (rule R63). -/
inductive PortWords where
  /-- Consumer port `c` (rule R64): `C_REQ` and `C_WDATA`. -/
  | consumer (c : Nat) (req : BitVec 104) (wdata : Nat)
  /-- The producer port (rule R66): `P_EV` and `P_DATA`. -/
  | producer (ev : BitVec 2) (data : Nat)
  /-- The controller port (rule R67): `K_REQ`. -/
  | controller (req : BitVec 66)
deriving DecidableEq, Repr

/-- What the environment does in one step of the machine. -/
inductive Action where
  /-- A port carries a request or an event. -/
  | present (w : PortWords)
  /-- Consumer `c` is the agent that steps: it takes the micro-step its phase enables. -/
  | micro (c : Nat)
  /-- Reset is applied (rules R180, R181; log 19). -/
  | reset
deriving DecidableEq, Repr

/-- One entry of the environment's script: the clock reading it presents, and what it does. -/
structure Turn where
  clock : U64
  act : Action
deriving DecidableEq, Repr

/-- Pseudo-operation `get` (rule R78): remove the oldest pending frame. -/
def Instr.get (c : Nat) : Instr := .popAt c 0

/-- Pseudo-operation `resync` (rule R78). -/
def Instr.resync (c : Nat) : Instr := .clear c

/-- Pseudo-operation `open` (rule R78): the first RECONNECT after reset. -/
def Instr.openTransport (h : U64) : Instr := .reconnect h

/-- Pseudo-operation `wait_for <id>, inf` (rule R78). -/
def Instr.waitForInf (c : Nat) (id : U64) : Instr := .waitForever c id

end Sys2Proof
end

