-- ==== Sys2Proof/WellFormed.lean ====
section
/-! DEFINITION. What an operation must satisfy to exist on its port under the parameters `p`. -/

namespace Sys2Proof

/-- The payload has `PAYLOAD_MAX` bytes (rule R10); every other bit pattern of a frame is legal. -/
abbrev Frame.WF (p : Params) (f : Frame) : Prop := f.payload.length = p.payloadMax

/-- The handle field has no bit at or above `HANDLE_BITS` (rules R67, R74). -/
abbrev handleFits (p : Params) (h : U64) : Prop := h.toNat < 2 ^ p.handleBits

/-- A well-formed operation: its port exists (rule R3), its frame has the fixed size (rule R10), its
handle is a handle (rule R67). -/
def Instr.wf (p : Params) : Instr → Bool
  | .nop c => c < p.numConsumers
  | .peek c _ => c < p.numConsumers
  | .popAt c _ => c < p.numConsumers
  | .clear c => c < p.numConsumers
  | .waitFor c _ _ => c < p.numConsumers
  | .waitForever c _ => c < p.numConsumers
  | .send c f => c < p.numConsumers && decide (f.WF p)
  | .status c => c < p.numConsumers
  | .rxFrame f => decide (f.WF p)
  | .rxError => true
  | .knop => true
  | .reconnect h => decide (handleFits p h)

end Sys2Proof
end

