-- ==== Sys2Proof/Machine/Operands.lean ====
section
/-! DEFINITION. Operand forms: little-endian byte strings, the frame's wire format, the frame-wide buses,
the fields of the request words, and the response word (`30_encoding.md`). -/

namespace Sys2Proof

/-- The `n` bytes of `v`, least significant first (rules R61, R63). -/
def leBytes : Nat → Nat → List Byte
  | 0, _ => []
  | n + 1, v => BitVec.ofNat 8 v :: leBytes n (v / 256)

/-- The number whose little-endian bytes are `bs` (rules R61, R63). -/
def leValue : List Byte → Nat
  | [] => 0
  | b :: bs => b.toNat + 256 * leValue bs

/-- `enc(f)`: the wire string of a frame (rules R60, R61). -/
def Frame.enc (f : Frame) : List Byte :=
  leBytes 8 f.commandId.toNat ++ (leBytes 8 f.arg0.toNat ++ (leBytes 8 f.arg1.toNat
    ++ (leBytes 8 f.arg2.toNat ++ f.payload)))

/-- The 8-byte field at byte offset `o` of a wire string (rules R60, R61). -/
def wireField (bs : List Byte) (o : Nat) : U64 := BitVec.ofNat 64 (leValue ((bs.drop o).take 8))

/-- `dec`: the frame of a wire string (rules R60, R61). -/
def Frame.dec (bs : List Byte) : Frame :=
  { commandId := wireField bs 0, arg0 := wireField bs 8, arg1 := wireField bs 16,
    arg2 := wireField bs 24, payload := bs.drop 32 }

/-- The number a frame-wide bus carries for a frame: wire byte `k` on bits `[8k+7 : 8k]` (rule R63). -/
def frameBus (f : Frame) : Nat := leValue f.enc

/-- The frame a frame-wide bus carries: its `FRAME_BITS` wires read by rule R63. -/
def busFrame (p : Params) (bus : Nat) : Frame := Frame.dec (leBytes p.frameBytes bus)

/-- `C_REQ[3:0]`, the consumer opcode (rule R64). -/
def reqOp (req : BitVec 104) : BitVec 4 := req.extractLsb' 0 4

/-- `C_REQ[7:4]`, reserved (rule R64). -/
def reqRsv (req : BitVec 104) : BitVec 4 := req.extractLsb' 4 4

/-- `C_REQ[71:8]`, the 64-bit operand (rule R64). -/
def reqA (req : BitVec 104) : U64 := req.extractLsb' 8 64

/-- `C_REQ[103:72]`, the timeout (rule R64). -/
def reqT (req : BitVec 104) : U32 := req.extractLsb' 72 32

/-- `K_REQ[1:0]`, the controller opcode (rule R67). -/
def kReqOp (req : BitVec 66) : BitVec 2 := req.extractLsb' 0 2

/-- `K_REQ[65:2]`, the handle field (rule R67). -/
def kReqH (req : BitVec 66) : U64 := req.extractLsb' 2 64

/-- The consumer request word of its fields (rule R64). -/
def reqWord (op : BitVec 4) (a : U64) (t : U32) : BitVec 104 := t ++ (a ++ ((0 : BitVec 4) ++ op))

/-- The controller request word of its fields (rule R67). -/
def kReqWord (op : BitVec 2) (h : U64) : BitVec 66 := h ++ op

/-- The status codes (rule R72). -/
inductive Status where
  | ok
  | noMatch
  | deferred
  | illegalIndex
  | illegalOp
  | refused
deriving DecidableEq, Repr

/-- The number of a status code (rule R72). -/
def Status.code : Status → BitVec 4
  | .ok => 0
  | .noMatch => 1
  | .deferred => 2
  | .illegalIndex => 3
  | .illegalOp => 4
  | .refused => 5

/-- The consumer response word `C_RSP` (rule R65): `V`, four zero bits, `ST`. -/
def rspWord (st : Status) (v : U64) : BitVec 72 := v ++ ((0 : BitVec 4) ++ st.code)

/-- `zext_w(n)` of a count that the spec zero-extends to `w` bits; where `w` bits cannot hold it the
spec states no value and the result is the free value `free n` (log 12). -/
def zextOr (w : Nat) (free : Nat → BitVec w) (n : Nat) : BitVec w :=
  if n < 2 ^ w then BitVec.ofNat w n else free n

end Sys2Proof
end

