-- ==== Sys2Proof/Machine/State.lean ====
section
/-! DEFINITION. The state of the block (`10_state.md`), its reset, and the reasons a step can stop. -/

namespace Sys2Proof.Machine

open Sys2Proof

/-- The agents that take steps (rule R3). -/
inductive Agent where
  | producer
  | consumer (c : Nat)
  | controller
deriving DecidableEq, Repr

/-- The lock (rule R20). -/
inductive Lock where
  | free
  | held (a : Agent)
deriving DecidableEq, Repr

/-- The phase of a waiter (rule R22). -/
inductive Phase where
  /-- No wait in progress, the port accepts a request. -/
  | idle
  /-- About to take the lock and scan. -/
  | scan
  /-- A scan failed, about to compare the elapsed time with the timeout. -/
  | check
  /-- Suspended before the next scan. -/
  | sleep
deriving DecidableEq, Repr

/-- The waiter context of one consumer (rules R21, R22). -/
structure Waiter where
  phase : Phase
  /-- `want_id[c]` -/
  wantId : U64
  /-- `timeout[c]`, milliseconds -/
  timeout : U32
  /-- `inf[c]`: the wait has no timeout. -/
  inf : Bool
  /-- `start[c]`: `now` at acceptance. -/
  start : U64
  /-- The MODEL's own: the length drawn for the last sleep (rule R103; log 9). -/
  slept : Nat
deriving DecidableEq, Repr

/-- The reconnect handshake of rule R132, by its phases. `req` is 1 in `request` and `acknowledged`,
`ack` is 1 in `acknowledged` and `release`. -/
inductive KCross where
  /-- `req = ack = 0`. -/
  | idle
  /-- The holding register has the handle, `req` is raised. -/
  | request (h : U64)
  /-- The P-domain has performed the body, latched the result and raised `ack`. -/
  | acknowledged (st : Status)
  /-- The controller port has dropped `req`. -/
  | release (st : Status)
deriving DecidableEq, Repr

/-- The lock handshake of rule R133: request and grant of the C-domain requester being served. -/
inductive LockCross where
  | idle
  | requested (c : Nat)
  | granted (c : Nat)
deriving DecidableEq, Repr

/-- Port responses and output events (rules R64 to R68). -/
inductive Event where
  /-- `C_DONE[c] = 1` with `C_RSP`, and `C_RDATA` where it carries a frame. `none` is a `C_RDATA` to which
  rule R65 gives no value (log 10). -/
  | done (c : Nat) (rsp : BitVec 72) (rdata : Option Nat)
  /-- `K_DONE = 1` with `K_ST`. -/
  | kDone (st : BitVec 4)
  /-- `TX_VALID = 1` with `TX_DATA` and `TX_HANDLE`. -/
  | tx (data : Nat) (handle : U64)
  /-- `OVF = 1`. -/
  | ovf
deriving DecidableEq, Repr

/-- The slot space as (address, byte) pairs in rising order of address. An address that is not listed has
no value: the spec gives slots no contents at reset (rule R30). -/
abbrev Memory := List Host.Cell

/-- The whole machine. -/
structure State where
  /-- The MODEL's own: the parameters of `00_scope.md` section 4; no step changes them (log 1). -/
  params : Params
  /-- The slot space, rules R11, R40. -/
  slots : Memory
  /-- Next write slot, in `[0, 2N)`, rule R12. -/
  head : Nat
  /-- Oldest unread slot, in `[0, 2N)`, rule R12. -/
  tail : Nat
  /-- Rule R16. -/
  online : Bool
  /-- `pending_valid`, rule R17. -/
  pendingValid : Bool
  /-- `pending_frame`, its wire string, rule R17. -/
  pendingFrame : List Byte
  /-- The transport handle, zero-extended from `HANDLE_BITS`, rule R19. -/
  xport : U64
  /-- The MODEL's own: whether `xport` has been written since reset. Until then rule R30 leaves it without a
  value (log 6). -/
  xportWritten : Bool
  /-- Rule R20. -/
  lock : Lock
  /-- One context per consumer, rule R21. -/
  waiters : List Waiter
  /-- The reconnect handshake, rules R24, R132. -/
  kCross : KCross
  /-- The lock handshake, rules R24, R133. -/
  lockCross : LockCross
  /-- The MODEL's own: the clock value the last step read, rule R25 (log 3). -/
  now : U64
  /-- The MODEL's own: what the environment will present, first turn first (log 2). -/
  inputs : List Turn
  /-- The MODEL's own: what the ports show of the current step (log 18). -/
  out : List Event
  /-- The MODEL's own: how many free values have been drawn (log 8). -/
  draws : Nat
deriving DecidableEq, Repr

/-- Why the machine stops. Both are the model's own stops at states that break the block's invariant
(`Sys2Proof.Machine.Inv`): the block itself has no fault (rule R156). -/
inductive Fault where
  /-- A slot byte that nothing has written is read (`93_implementation_defined.md` U8). Raised by
  `memRead`. Safe: the spec gives such a byte no value. -/
  | unwrittenSlot
  /-- An access outside the slot space (rule R40). Raised by `memRead` and `memWrite`. Safe. -/
  | outsideSlotSpace
deriving DecidableEq, Repr

/-- Why an input has no meaning. -/
inductive Refusal where
  /-- An instruction that has no meaning yet. Raised by `exec` alone. Safe. -/
  | notModelled (mnemonic : String)
  /-- A request or a micro-step of a consumer port that the block does not have (rule R3: one port per
  consumer). Raised by `onPort`, `microStep` and `answerIllegal`. Safe: such a port cannot carry anything. -/
  | noSuchPort
  /-- A frame whose payload is not `PAYLOAD_MAX` bytes (rule R10). Raised by `withFrame`. Safe: no bus can
  carry such a frame, and the decoder never builds one. -/
  | malformedFrame
deriving DecidableEq, Repr

/-- A waiter after reset: idle (rule R30). DESIGN CHOICE (log 7): the operand registers, which the spec
leaves unspecified, are 0. -/
def Waiter.reset : Waiter :=
  { phase := .idle, wantId := 0, timeout := 0, inf := false, start := 0, slept := 0 }

/-- The machine after reset (rules R30, R180) under the parameters `p`. DESIGN CHOICE (logs 5, 6):
`pendingFrame` and `xport`, which the spec leaves unspecified, are 0. -/
def State.resetWith (p : Params) : State :=
  { params := p
    slots := []
    head := 0
    tail := 0
    online := false
    pendingValid := false
    pendingFrame := List.replicate p.frameBytes 0
    xport := 0
    xportWritten := false
    lock := .free
    waiters := List.replicate p.numConsumers Waiter.reset
    kCross := .idle
    lockCross := .idle
    now := 0
    inputs := []
    out := []
    draws := 0 }

/-- The machine right after reset. DESIGN CHOICE (log 1): with the parameters of the spec's test
vectors. -/
def State.reset : State := State.resetWith Params.vectors

end Sys2Proof.Machine
end

