-- ==== Sys2Proof/Machine/Flags.lean ====
section
/-! DEFINITION. Pointer arithmetic, the derived flags, the status view, and the ready outputs. -/

namespace Sys2Proof.Machine

open Sys2Proof

/-- `inc(p)` (rule R14). -/
def ptrInc (p : Params) (q : Nat) : Nat := if q + 1 = p.ptrMod then 0 else q + 1

/-- `add(p, i)` (rule R14). -/
def ptrAdd (p : Params) (q i : Nat) : Nat := (q + i) % p.ptrMod

/-- `slot(p)` (rule R14). -/
def ptrSlot (p : Params) (q : Nat) : Nat := if q < p.cmdBufferSize then q else q - p.cmdBufferSize

/-- `count` of a head and a tail (rules R13, R14). -/
def ptrCount (p : Params) (h t : Nat) : Nat := if t ≤ h then h - t else h + p.ptrMod - t

/-- `count` (rule R13). -/
def State.count (s : State) : Nat := ptrCount s.params s.head s.tail

/-- `empty` (rule R15). -/
def State.empty (s : State) : Bool := decide (s.head = s.tail)

/-- `full` (rule R15). -/
def State.full (s : State) : Bool := decide (s.count = s.params.cmdBufferSize)

/-- The status view (rule R73), most significant field first. -/
def statusView (s : State) : U64 :=
  (0 : BitVec 24) ++ (zextOr 32 Config.wideCount s.count ++ ((0 : BitVec 4)
    ++ (BitVec.ofBool s.full ++ (BitVec.ofBool s.empty
      ++ (BitVec.ofBool s.pendingValid ++ BitVec.ofBool s.online)))))

/-- The slot of pending position `i` (rules R13, R43). -/
def pendingSlot (s : State) (i : Nat) : Nat := ptrSlot s.params (ptrAdd s.params s.tail i)

/-- `C_READY[c]` (rule R75). -/
def cReady (s : State) (c : Nat) : Bool :=
  match s.waiters[c]? with
  | some w => decide (w.phase = .idle)
  | none => false

/-- `P_READY` (rules R75, R130). -/
def pReady (s : State) : Bool := s.online

/-- `req` of the reconnect handshake (rule R132). -/
def kReq (s : State) : Bool :=
  match s.kCross with
  | .request _ => true
  | .acknowledged _ => true
  | .idle => false
  | .release _ => false

/-- `ack` of the reconnect handshake (rule R132). -/
def kAck (s : State) : Bool :=
  match s.kCross with
  | .acknowledged _ => true
  | .release _ => true
  | .idle => false
  | .request _ => false

/-- `K_READY`: no RECONNECT is in progress (rules R75, R132). -/
def kReady (s : State) : Bool := !kReq s && !kAck s

/-- `RX_HANDLE` (rule R66): equal to `xport`, online or offline. Before the first RECONNECT after reset
`xport` has no value (rule R30), and so neither has the output (log 6). -/
def rxHandle (s : State) : Option U64 := if s.xportWritten then some s.xport else none

end Sys2Proof.Machine
end

