-- ==== Sys2Proof/Machine/Ops.lean ====
section
/-! DEFINITION. The named operations over the slot space, the lock, the ports, the connection state and
the waiter contexts. The block takes no exceptions (rules R150, R156, R162): a condition is a status code,
answered by `respond` or `kRespond`, the `ovf` event, or the offline state, entered by `goOffline` and left
by `goOnline`. -/

namespace Sys2Proof.Machine

open Sys2Proof

/-! ## The slot space -/

/-- The canonical form of a memory: addresses strictly rising. No value is listed for an address that
nothing has written, so no entry repeats what an unlisted address reads as. -/
abbrev Memory.wf (m : Memory) : Prop := m.Pairwise (fun x y => x.1 < y.1)

/-- One byte; `none` where nothing has been written (log 4). -/
def Memory.read : Memory → Nat → Option Byte
  | [], _ => none
  | (k, b) :: m, a => if k = a then some b else Memory.read m a

/-- One byte written, the canonical form kept. -/
def Memory.write : Memory → Nat → Byte → Memory
  | [], a, v => [(a, v)]
  | (k, b) :: m, a, v =>
    if a < k then (a, v) :: (k, b) :: m
    else if a = k then (a, v) :: m
    else (k, b) :: Memory.write m a v

/-- `n` bytes from address `a`. -/
def Memory.readBytes (m : Memory) : Nat → Nat → Option (List Byte)
  | _, 0 => some []
  | a, n + 1 =>
    match m.read a with
    | none => none
    | some b => (Memory.readBytes m (a + 1) n).map (b :: ·)

/-- A byte string written from address `a`. -/
def Memory.writeBytes : Memory → Nat → List Byte → Memory
  | m, _, [] => m
  | m, a, b :: bs => Memory.writeBytes (m.write a b) (a + 1) bs

/-- `MemRead(addr, n)` (`00_scope.md` section 5, rule R40). -/
def memRead (s : State) (a n : Nat) : Except Fault (List Byte) :=
  if a + n ≤ s.params.slotSpace then
    match s.slots.readBytes a n with
    | some bs => .ok bs
    | none => .error .unwrittenSlot
  else .error .outsideSlotSpace

/-- `MemWrite(addr, n, v)` with `n` the length of `v` (`00_scope.md` section 5, rule R40). -/
def memWrite (s : State) (a : Nat) (bs : List Byte) : Except Fault State :=
  if a + bs.length ≤ s.params.slotSpace then .ok { s with slots := s.slots.writeBytes a bs }
  else .error .outsideSlotSpace

/-- The byte address of slot `k` (rules R40, R42). -/
def slotAddr (p : Params) (k : Nat) : Nat := k * p.frameBytes

/-- `SlotRead(k)` (`00_scope.md` section 5, rule R42): the slot's wire string. -/
def slotRead (s : State) (k : Nat) : Except Fault (List Byte) :=
  memRead s (slotAddr s.params k) s.params.frameBytes

/-- `SlotWrite(k, v)` (`00_scope.md` section 5, rule R42). -/
def slotWrite (s : State) (k : Nat) (bs : List Byte) : Except Fault State :=
  memWrite s (slotAddr s.params k) bs

/-- `pending(i)` (rule R13). -/
def pendingAt (s : State) (i : Nat) : Except Fault Frame :=
  match slotRead s (pendingSlot s i) with
  | .ok bs => .ok (Frame.dec bs)
  | .error e => .error e

/-! ## Responses, events and conditions -/

/-- An output event (`emit` of `00_scope.md` section 5). -/
def emit (e : Event) (s : State) : State := { s with out := s.out ++ [e] }

/-- The response of consumer port `c` (rule R65). -/
def respond (c : Nat) (st : Status) (v : U64) (rdata : Option Nat) (s : State) : State :=
  emit (.done c (rspWord st v) rdata) s

/-- The response of the controller port (rule R67). -/
def kRespond (st : Status) (s : State) : State := emit (.kDone st.code) s

/-- `emit TX(f)` (rule R68): the frame with the current handle. -/
def emitTx (f : Frame) (s : State) : State := emit (.tx (frameBus f) s.xport) s

/-! ## The lock -/

/-- The lock handshake of a requester up to its grant (rule R133): a consumer's request crosses from the
C-domain; the producer and the reconnect handshake ask from the P-domain directly. -/
def lockRequest (a : Agent) (s : State) : State :=
  match a with
  | .consumer c => { s with lockCross := .requested c }
  | .producer => s
  | .controller => s

/-- `lock <- Held(self)` (rule R47), and the grant that crosses back to a consumer (rule R133). -/
def lockGrant (a : Agent) (s : State) : State :=
  match a with
  | .consumer c => { s with lock := .held a, lockCross := .granted c }
  | .producer => { s with lock := .held a }
  | .controller => { s with lock := .held a }

/-- The request falls and the arbiter frees the lock (rules R47, R133). -/
def lockRelease (s : State) : State := { s with lock := .free, lockCross := .idle }

/-- `with lock: body`, then `after` outside the lock (rules R47, R54). An agent that finds the lock held
has not taken its step: nothing changes (log 13). -/
def withLock {α : Type} (a : Agent) (s : State) (body : State → Except Fault (α × State))
    (after : α → State → Host.Outcome State Fault Refusal) : Host.Outcome State Fault Refusal :=
  match s.lock with
  | .held _ => .next s
  | .free =>
    match body (lockGrant a (lockRequest a s)) with
    | .error e => .fault e
    | .ok (r, s') => after r (lockRelease s')

/-! ## Ports -/

/-- A request on consumer port `c` (rules R23, R75): accepted when `C_READY[c] = 1`, and without effect
otherwise (log 22). -/
def onPort (c : Nat) (s : State) (body : Waiter → Host.Outcome State Fault Refusal) :
    Host.Outcome State Fault Refusal :=
  match s.waiters[c]? with
  | none => .refused .noSuchPort
  | some w => if w.phase = .idle then body w else .next s

/-- An event on the producer port (rules R66, R130): consumed when `P_READY = 1`, and without effect
otherwise (log 22). -/
def onProducer (s : State) (body : Host.Outcome State Fault Refusal) : Host.Outcome State Fault Refusal :=
  if pReady s then body else .next s

/-- A request on the controller port (rules R67, R75): accepted when `K_READY = 1`. -/
def onController (s : State) (body : Host.Outcome State Fault Refusal) : Host.Outcome State Fault Refusal :=
  if kReady s then body else .next s

/-- A frame operand has the fixed size (rule R10); log 16. -/
def withFrame (f : Frame) (s : State) (body : Host.Outcome State Fault Refusal) :
    Host.Outcome State Fault Refusal :=
  if f.WF s.params then body else .refused .malformedFrame

/-! ## The ring buffer primitives (`40_ring_buffer.md` section 1), inside the lock -/

/-- PUSH of a wire string (rule R80): `true` when the buffer was not full. -/
def pushWire (bs : List Byte) (s : State) : Except Fault (Bool × State) :=
  match slotWrite s (ptrSlot s.params s.head) bs with
  | .error e => .error e
  | .ok s' =>
    .ok (!s.full,
      { s' with
        head := ptrInc s.params s.head
        tail := if s.full then ptrInc s.params s.tail else s.tail })

/-- `PUSH(f)` (rule R80). Slots hold wire strings (`00_scope.md` section 5). -/
def push (f : Frame) (s : State) : Except Fault (Bool × State) := pushWire f.enc s

/-- The scan of PEEK_MATCHING from position `i` over the next `n` positions (rule R81). -/
def scanFrom (s : State) (P : Frame → Bool) : Nat → Nat → Except Fault (Option Nat)
  | _, 0 => .ok none
  | i, n + 1 =>
    match pendingAt s i with
    | .error e => .error e
    | .ok f => if P f then .ok (some i) else scanFrom s P (i + 1) n

/-- `PEEK_MATCHING(P)` (rule R81): the least pending position whose frame satisfies `P`. -/
def peekMatching (P : Frame → Bool) (s : State) : Except Fault (Option Nat × State) :=
  match scanFrom s P 0 s.count with
  | .error e => .error e
  | .ok r => .ok (r, s)

/-- `P_id` (rule R81): all 64 bits of the identifier (rule R71). -/
def matchesId (id : U64) (f : Frame) : Bool := decide (f.commandId = id)

/-- The shift of POP_AT (rule R82): for `j = i, i - 1, ..., 1` pending position `j` takes the bytes of
position `j - 1`. -/
def shiftOlder (s : State) : Nat → Except Fault State
  | 0 => .ok s
  | j + 1 =>
    match slotRead s (pendingSlot s j) with
    | .error e => .error e
    | .ok bs =>
      match slotWrite s (pendingSlot s (j + 1)) bs with
      | .error e => .error e
      | .ok s' => shiftOlder s' j

/-- `POP_AT(i)` (rule R82): `none` is ILLEGAL_INDEX. -/
def popAtPos (i : Nat) (s : State) : Except Fault (Option Frame × State) :=
  if i < s.count then
    match pendingAt s i with
    | .error e => .error e
    | .ok f =>
      match shiftOlder s i with
      | .error e => .error e
      | .ok s' => .ok (some f, { s' with tail := ptrInc s.params s.tail })
  else .ok (none, s)

/-- `CLEAR()` (rule R83). -/
def clearRing (s : State) : State := { s with tail := s.head }

/-! ## The connection state (`42_connection_receiver.md`), inside the lock -/

/-- Entry to the offline state (rules R123, R163). -/
def goOffline (s : State) : State := { s with online := false }

/-- `FLUSH()` (rule R124). -/
def flush (s : State) : State :=
  if s.pendingValid then { emitTx (Frame.dec s.pendingFrame) s with pendingValid := false } else s

/-- Return from the offline state (rules R125, R165): the handle, `online`, then the flush. -/
def goOnline (h : U64) (s : State) : State :=
  flush { s with xport := h, xportWritten := true, online := true }

/-- The body of RECONNECT (rules R125, R135). -/
def reconnectBody (h : U64) (s : State) : Status × State :=
  if s.online then (.refused, s) else (.ok, goOnline h s)

/-- The body of SEND (rule R126). -/
def sendBody (f : Frame) (s : State) : Status × State :=
  if s.online then (.ok, emitTx f s)
  else (.deferred, { s with pendingFrame := f.enc, pendingValid := true })

/-! ## The reconnect handshake (rule R132), whose phases all fall inside RECONNECT's one step -/

/-- Phase (1): the handle in the holding register, `req` raised. -/
def kLatch (h : U64) (s : State) : State := { s with kCross := .request h }

/-- Phase (3): the P-domain performs the body on the handle of the holding register, latches the result
and raises `ack`. -/
def kPerform (s : State) : Status × State :=
  match s.kCross with
  | .request h =>
    match reconnectBody h s with
    | (st, s') => (st, { s' with kCross := .acknowledged st })
  | .idle => (.ok, s)
  | .acknowledged st => (st, s)
  | .release st => (st, s)

/-- Phase (4): the controller port drops `req`. -/
def kDrop (st : Status) (s : State) : State := { s with kCross := .release st }

/-- Phase (5): `ack` falls, `K_DONE` is pulsed with `K_ST`. -/
def kFinish (st : Status) (s : State) : State := kRespond st { s with kCross := .idle }

/-! ## Waiter contexts and free values -/

/-- The context of consumer `c` written. -/
def setWaiter (c : Nat) (w : Waiter) (s : State) : State := { s with waiters := s.waiters.set c w }

/-- A free value is drawn: the next draw is another one (log 8). -/
def drawNext (s : State) : State := { s with draws := s.draws + 1 }

end Sys2Proof.Machine
end

