-- ==== Sys2Proof/Machine/Connection.lean ====
section
/-! DEFINITION. Send, the background receiver and reconnect (`42_connection_receiver.md`). -/

namespace Sys2Proof.Machine

open Sys2Proof

/-- SEND (rule R126). -/
def execSend (c : Nat) (f : Frame) (s : State) : Host.Outcome State Fault Refusal :=
  onPort c s fun _ => withFrame f s <|
    withLock (.consumer c) s (fun s => .ok (sendBody f s)) fun st s => .next (respond c st 0 none s)

/-- The overflow report (rule R122): one OVF for a PUSH that found the buffer full. -/
def reportOverflow (notFull : Bool) (s : State) : State := if notFull then s else emit .ovf s

/-- RX_FRAME (rules R121, R122), consumed only while online (rule R130). -/
def execRxFrame (f : Frame) (s : State) : Host.Outcome State Fault Refusal :=
  onProducer s <| withFrame f s <|
    withLock .producer s (push f) fun ok s => .next (reportOverflow ok s)

/-- RX_ERROR (rule R123), consumed only while online (rule R130). -/
def execRxError (s : State) : Host.Outcome State Fault Refusal :=
  onProducer s <|
    withLock .producer s (fun s => .ok ((), goOffline s)) fun _ s => .next s

/-- RECONNECT (rules R125, R132, R135). A handle field with a bit at or above `HANDLE_BITS` is ILLEGAL_OP
before everything (rules R74, R161). -/
def execReconnect (h : U64) (s : State) : Host.Outcome State Fault Refusal :=
  onController s <|
    if handleFits s.params h then
      withLock .controller s (fun s => .ok (kPerform (kLatch h s))) fun st s =>
        .next (kFinish st (kDrop st s))
    else .next (kRespond .illegalOp s)

end Sys2Proof.Machine
end

