-- ==== Sys2Proof/Machine/ResponseWaiter.lean ====
section
/-! DEFINITION. The response waiter (`41_response_waiter.md`): acceptance of a wait, and the micro-steps
of a wait in progress. -/

namespace Sys2Proof.Machine

open Sys2Proof

/-- WAIT_FOR (rule R100): W_START. The lock is not taken. -/
def execWaitFor (c : Nat) (id : U64) (t : U32) (s : State) : Host.Outcome State Fault Refusal :=
  onPort c s fun w =>
    .next (setWaiter c
      { w with wantId := id, timeout := t, inf := false, start := s.now, phase := .scan } s)

/-- WAIT_FOREVER (rule R105): W_START with `inf` set; `timeout[c]` takes a free value (log 8). -/
def execWaitForever (c : Nat) (id : U64) (s : State) : Host.Outcome State Fault Refusal :=
  onPort c s fun w =>
    .next (drawNext (setWaiter c
      { w with
        wantId := id, timeout := Config.foreverTimeout s.draws, inf := true, start := s.now
        phase := .scan } s))

/-- The body of W_SCAN under its one lock (rule R101): the oldest matching frame is found and removed. -/
def scanBody (id : U64) (s : State) : Except Fault (Option Frame × State) :=
  match peekMatching (matchesId id) s with
  | .error e => .error e
  | .ok (none, s') => .ok (none, s')
  | .ok (some i, s') => popAtPos i s'

/-- What W_SCAN does after it has released the lock (rule R101). -/
def scanAnswer (c : Nat) (w : Waiter) : Option Frame → State → State
  | some f, s => setWaiter c { w with phase := .idle } (respond c .ok 0 (some (frameBus f)) s)
  | none, s => setWaiter c { w with phase := .check } s

/-- W_SCAN (rule R101). -/
def wScan (c : Nat) (w : Waiter) (s : State) : Host.Outcome State Fault Refusal :=
  withLock (.consumer c) s (scanBody w.wantId) fun r s => .next (scanAnswer c w r s)

/-- The wait gives up at clock value `now` (rules R102, R115): strictly more than the timeout has
elapsed. -/
def waitExpired (w : Waiter) (now : U64) : Bool :=
  !w.inf && decide (w.timeout.toNat < (now - w.start).toNat)

/-- W_CHECK (rule R102), outside the lock. -/
def wCheck (c : Nat) (w : Waiter) (s : State) : Host.Outcome State Fault Refusal :=
  if waitExpired w s.now then
    .next (setWaiter c { w with phase := .idle } (respond c .noMatch 0 none s))
  else .next (setWaiter c { w with phase := .sleep } s)

/-- The length drawn for one sleep, in `[0, POLL_MAX_MS]` (rule R103; log 9). -/
def sleepDraw (s : State) : Nat := Config.sleepLength s.draws % (s.params.pollMaxMs + 1)

/-- W_WAKE (rule R103). -/
def wWake (c : Nat) (w : Waiter) (s : State) : Host.Outcome State Fault Refusal :=
  .next (drawNext (setWaiter c { w with phase := .scan, slept := sleepDraw s } s))

/-- The micro-step that the phase of consumer `c` enables (rules R101 to R103). With `phase[c] = Idle`
none is enabled and nothing happens. -/
def microStep (c : Nat) (s : State) : Host.Outcome State Fault Refusal :=
  match s.waiters[c]? with
  | none => .refused .noSuchPort
  | some w =>
    match w.phase with
    | .idle => .next s
    | .scan => wScan c w s
    | .check => wCheck c w s
    | .sleep => wWake c w s

end Sys2Proof.Machine
end

