-- ==== Sys2Proof/Machine/RingBuffer.lean ====
section
/-! DEFINITION. The ring buffer's port operations (`40_ring_buffer.md` section 2). -/

namespace Sys2Proof.Machine

open Sys2Proof

/-- NOP (rule R88). -/
def execNop (c : Nat) (s : State) : Host.Outcome State Fault Refusal :=
  onPort c s fun _ => .next (respond c .ok 0 none s)

/-- KNOP (rule R88). -/
def execKnop (s : State) : Host.Outcome State Fault Refusal :=
  onController s (.next (kRespond .ok s))

/-- The answer of PEEK (rule R85). -/
def peekAnswer (c : Nat) : Option Nat → State → State
  | some i, s => respond c .ok (zextOr 64 Config.widePosition i) none s
  | none, s => respond c .noMatch 0 none s

/-- PEEK (rule R85). -/
def execPeek (c : Nat) (id : U64) (s : State) : Host.Outcome State Fault Refusal :=
  onPort c s fun _ =>
    withLock (.consumer c) s (peekMatching (matchesId id)) fun r s => .next (peekAnswer c r s)

/-- The answer of POP_AT (rule R86). -/
def popAnswer (c : Nat) : Option Frame → State → State
  | some f, s => respond c .ok 0 (some (frameBus f)) s
  | none, s => respond c .illegalIndex 0 none s

/-- POP_AT (rule R86): the position is compared in all its 64 bits (rule R71). -/
def execPopAt (c : Nat) (a : U64) (s : State) : Host.Outcome State Fault Refusal :=
  onPort c s fun _ =>
    withLock (.consumer c) s (popAtPos a.toNat) fun r s => .next (popAnswer c r s)

/-- CLEAR (rule R87). -/
def execClear (c : Nat) (s : State) : Host.Outcome State Fault Refusal :=
  onPort c s fun _ =>
    withLock (.consumer c) s (fun s => .ok ((), clearRing s)) fun _ s => .next (respond c .ok 0 none s)

/-- STATUS (rule R89). -/
def execStatus (c : Nat) (s : State) : Host.Outcome State Fault Refusal :=
  onPort c s fun _ =>
    withLock (.consumer c) s (fun s => .ok (statusView s, s)) fun v s => .next (respond c .ok v none s)

end Sys2Proof.Machine
end

