-- ==== Sys2Proof/Machine/Dispatch.lean ====
section
/-! DEFINITION. One arm per operation. -/

namespace Sys2Proof.Machine

open Sys2Proof

def exec (i : Instr) (s : State) : Host.Outcome State Fault Refusal :=
  match i with
  | .nop c => Sys2Proof.Machine.execNop c s
  | .peek c id => Sys2Proof.Machine.execPeek c id s
  | .popAt c a => Sys2Proof.Machine.execPopAt c a s
  | .clear c => Sys2Proof.Machine.execClear c s
  | .waitFor c id t => Sys2Proof.Machine.execWaitFor c id t s
  | .waitForever c id => Sys2Proof.Machine.execWaitForever c id s
  | .send c f => Sys2Proof.Machine.execSend c f s
  | .status c => Sys2Proof.Machine.execStatus c s
  | .rxFrame f => Sys2Proof.Machine.execRxFrame f s
  | .rxError => Sys2Proof.Machine.execRxError s
  | .knop => Sys2Proof.Machine.execKnop s
  | .reconnect h => Sys2Proof.Machine.execReconnect h s

end Sys2Proof.Machine
end

