-- ==== Sys2Proof/Decode.lean ====
section
/-! DEFINITION. The decoder of the ports' words (`30_encoding.md` rules R64 to R74), total and rejecting
by name, and after it the encoder. -/

namespace Sys2Proof

/-- Why a port's words stand for no operation. -/
inductive DecodeError where
  /-- The words are on a consumer port that the block does not have (rule R3). -/
  | noSuchPort
  /-- Consumer `OP` in `0x8 .. 0xF` (rule R74). -/
  | reservedOpcode
  /-- Consumer `RSV` not 0 (rule R74). -/
  | reservedBits
  /-- Controller `KOP` 2 or 3 (rule R74). -/
  | reservedControllerOp
  /-- RECONNECT with a handle bit at or above `HANDLE_BITS` (rule R74). -/
  | handleBits
  /-- Producer `P_EV = 0`: no event (rule R70). -/
  | noEvent
  /-- Producer `P_EV = 3` (rules R70, R74). -/
  | reservedEvent
deriving DecidableEq, Repr

/-- The consumer opcode map (rule R69). -/
def decodeOp (p : Params) (c : Nat) (req : BitVec 104) (wdata : Nat) : Except DecodeError Instr :=
  match (reqOp req).toNat with
  | 0 => .ok (.nop c)
  | 1 => .ok (.peek c (reqA req))
  | 2 => .ok (.popAt c (reqA req))
  | 3 => .ok (.clear c)
  | 4 => .ok (.waitFor c (reqA req) (reqT req))
  | 5 => .ok (.waitForever c (reqA req))
  | 6 => .ok (.send c (busFrame p wdata))
  | 7 => .ok (.status c)
  | _ => .error .reservedOpcode

/-- A consumer request (rules R64, R69, R71): operands an opcode does not use are ignored. -/
def decodeConsumer (p : Params) (c : Nat) (req : BitVec 104) (wdata : Nat) : Except DecodeError Instr :=
  if c < p.numConsumers then
    if reqRsv req = 0 then decodeOp p c req wdata else .error .reservedBits
  else .error .noSuchPort

/-- A producer event (rules R66, R70). -/
def decodeProducer (p : Params) (ev : BitVec 2) (data : Nat) : Except DecodeError Instr :=
  match ev.toNat with
  | 1 => .ok (.rxFrame (busFrame p data))
  | 2 => .ok .rxError
  | 0 => .error .noEvent
  | _ => .error .reservedEvent

/-- A controller request (rules R67, R70, R71, R74). -/
def decodeController (p : Params) (req : BitVec 66) : Except DecodeError Instr :=
  match (kReqOp req).toNat with
  | 0 => .ok .knop
  | 1 => if handleFits p (kReqH req) then .ok (.reconnect (kReqH req)) else .error .handleBits
  | _ => .error .reservedControllerOp

/-- The decoder: each port has its own opcode map (rule R167). -/
def decode (p : Params) : PortWords → Except DecodeError Instr
  | .consumer c req wdata => decodeConsumer p c req wdata
  | .producer ev data => decodeProducer p ev data
  | .controller req => decodeController p req

/-- The encoder: the port and the words that carry an operation. Operands an opcode does not use, and
buses it does not read, are 0. -/
def encode : Instr → PortWords
  | .nop c => .consumer c (reqWord 0 0 0) 0
  | .peek c id => .consumer c (reqWord 1 id 0) 0
  | .popAt c a => .consumer c (reqWord 2 a 0) 0
  | .clear c => .consumer c (reqWord 3 0 0) 0
  | .waitFor c id t => .consumer c (reqWord 4 id t) 0
  | .waitForever c id => .consumer c (reqWord 5 id 0) 0
  | .send c f => .consumer c (reqWord 6 0 0) (frameBus f)
  | .status c => .consumer c (reqWord 7 0 0) 0
  | .rxFrame f => .producer 1 (frameBus f)
  | .rxError => .producer 2 0
  | .knop => .controller (kReqWord 0 0)
  | .reconnect h => .controller (kReqWord 1 h)

/-- The port words of an instruction word of `spec/opcode_table.json`: the width of the row says which
port it is (104 bits consumer, 66 controller, 2 producer; in whole bytes 104, 72, 8). Consumer requests are
those of port 0, the frame-wide bus carries 0, and a bit that the port has no wire for must be 0 (log 20,
log 21). -/
def tableWords (nbits w : Nat) : Option PortWords :=
  if nbits = 104 then if w < 2 ^ 104 then some (.consumer 0 (BitVec.ofNat 104 w) 0) else none
  else if nbits = 72 ∨ nbits = 66 then
    if w < 2 ^ 66 then some (.controller (BitVec.ofNat 66 w)) else none
  else if nbits = 8 ∨ nbits = 2 then
    if w < 2 ^ 2 then some (.producer (BitVec.ofNat 2 w) 0) else none
  else none

/-- What the decoder reads from an instruction word of the opcode table, under the parameters of
`State.reset`. -/
def decodeTableWord (nbits w : Nat) : Option Instr :=
  match tableWords nbits w with
  | none => none
  | some ws =>
    match decode Params.vectors ws with
    | .ok i => some i
    | .error _ => none

end Sys2Proof
end

