-- ==== Sys2Proof/Machine/Turn.lean ====
section
/-! DEFINITION. Taking the environment's next turn, the answer to words that stand for no operation,
reset during a run, and placing a word where the next step takes it. -/

namespace Sys2Proof.Machine

open Sys2Proof

/-- The clock value that a step reads: the one presented, and never less than the last one
(rule R25; log 3). -/
def clockRead (last presented : U64) : U64 := if presented < last then last else presented

/-- A step in which no agent acts: nothing happens and nothing is emitted (rule R181; log 2). -/
def idleStep (s : State) : State := { s with out := [] }

/-- The state in which the next turn's agent steps: the turn is taken off the script, the clock is read,
the outputs of the step before are gone. -/
def beginTurn (t : Turn) (rest : List Turn) (s : State) : State :=
  { s with inputs := rest, now := clockRead s.now t.clock, out := [] }

/-- Words that stand for no operation (rules R70, R74, R155): accepted, no state changed, answered with
ILLEGAL_OP where the port has a response. -/
def answerIllegal (w : PortWords) (e : DecodeError) (s : State) : Host.Outcome State Fault Refusal :=
  match w, e with
  | .consumer _ _ _, .noSuchPort => .refused .noSuchPort
  | .consumer c _ _, _ => onPort c s fun _ => .next (respond c .illegalOp 0 none s)
  | .controller _, _ => onController s (.next (kRespond .illegalOp s))
  | .producer _ _, _ => .next s

/-- Reset during a run (rules R180, R181): every state element as after reset, requests and waits in
progress abandoned without a response, nothing emitted. The parameters, the clock (rule R168) and what the
environment will present are not the block's to reset (log 19). -/
def resetBlock (s : State) : State :=
  { State.resetWith s.params with now := s.now, inputs := s.inputs, draws := s.draws }

/-- The port of the words made ready, as the acceptance of a request needs it (rule R75): consumer `c`
idle, the block online for a producer event (and then nothing is pending, rule R18, and `xport` has been
written, rule R30), the reconnect handshake idle (log 20). -/
def makeReady (w : PortWords) (s : State) : State :=
  match w with
  | .consumer c _ _ =>
    match s.waiters[c]? with
    | some x => setWaiter c { x with phase := .idle } s
    | none => s
  | .producer _ _ =>
    if s.online then s else { s with online := true, pendingValid := false, xportWritten := true }
  | .controller _ => { s with kCross := .idle }

/-- Words placed where the next step takes its input (log 20). -/
def placeWords (w : PortWords) (s : State) : State :=
  { makeReady w s with inputs := { clock := s.now, act := .present w } :: s.inputs }

end Sys2Proof.Machine
end

