-- ==== Sys2Proof/Machine/Step.lean ====
section
/-! DEFINITION. One step of the machine (rule R6): one agent takes one whole operation or micro-step. -/

namespace Sys2Proof.Machine

open Sys2Proof

/-- A port presents words: the operation they decode to is executed. -/
def stepPresent (w : PortWords) (s : State) : Host.Outcome State Fault Refusal :=
  match decode s.params w with
  | .ok i => exec i s
  | .error e => answerIllegal w e s

/-- What an agent does in its turn. -/
def stepAction (a : Action) (s : State) : Host.Outcome State Fault Refusal :=
  match a with
  | .present w => stepPresent w s
  | .micro c => microStep c s
  | .reset => .next (resetBlock s)

/-- One step: the environment's next turn (rules R3, R26, R160; log 2). -/
def step (s : State) : Host.Outcome State Fault Refusal :=
  match s.inputs with
  | [] => .next (idleStep s)
  | t :: rest => stepAction t.act (beginTurn t rest s)

/-- The instruction word placed where `step` takes its next input, on a port that is ready (log 20). -/
def State.withFetchWord (s : State) (nbits w : Nat) : State :=
  match tableWords nbits w with
  | some ws => placeWords ws s
  | none => s

end Sys2Proof.Machine
end

