-- ==== Sys2Proof/Safety.lean ====
section
/-! DEFINITION. The terms in which claims about the block are stated: the pending sequence, the
invariant of rule R32, what two states show alike, and the words of a response. -/

namespace Sys2Proof.Machine

open Sys2Proof

/-- A list of results, or the first fault among them. -/
def allOk {α : Type} : List (Except Fault α) → Except Fault (List α)
  | [] => .ok []
  | .error e :: _ => .error e
  | .ok x :: rs =>
    match allOk rs with
    | .ok xs => .ok (x :: xs)
    | .error e => .error e

/-- `pending` (rule R13): the pending frames, oldest first. -/
def pendingSeq (s : State) : Except Fault (List Frame) :=
  allOk ((List.range s.count).map (pendingAt s))

/-- Byte `a` of the slot space lies in slot `k` (rule R40). -/
abbrev inSlot (p : Params) (k a : Nat) : Prop :=
  slotAddr p k ≤ a ∧ a < slotAddr p k + p.frameBytes

/-- The invariant of the block at operation boundaries: rule R32, and what the model's own data must
satisfy (canonical memory inside the slot space, pending slots written, register widths, clock
readings in the past). -/
structure Inv (s : State) : Prop where
  /-- R4 -/
  paramsValid : s.params.Valid
  /-- R12 -/
  headLt : s.head < s.params.ptrMod
  /-- R12 -/
  tailLt : s.tail < s.params.ptrMod
  /-- R13 -/
  countLe : s.count ≤ s.params.cmdBufferSize
  /-- R18 -/
  onlineEmpty : s.online = true → s.pendingValid = false
  /-- R20 -/
  lockFree : s.lock = .free
  /-- R24, R132 -/
  kCrossIdle : s.kCross = .idle
  /-- R24, R133 -/
  lockCrossIdle : s.lockCross = .idle
  /-- One waiter context per consumer, R21. -/
  waitersLen : s.waiters.length = s.params.numConsumers
  /-- R102: `now >= start[c]` during a wait. -/
  startLe : ∀ w ∈ s.waiters, w.phase ≠ .idle → w.start ≤ s.now
  /-- R17: `pending_frame` is FRAME_BITS wide. -/
  pendingFrameLen : s.pendingFrame.length = s.params.frameBytes
  /-- R19: `xport` is HANDLE_BITS wide. -/
  xportFits : handleFits s.params s.xport
  /-- R30: `online = 1` implies an earlier write of `xport`. -/
  onlineWritten : s.online = true → s.xportWritten = true
  /-- The canonical form of the slot space. -/
  slotsWf : Memory.wf s.slots
  /-- R40: nothing is listed outside the slot space. -/
  slotsInside : ∀ x ∈ s.slots, x.1 < s.params.slotSpace
  /-- R30: every pending slot has been written. -/
  pendingWritten : ∀ i, i < s.count → (pendingAt s i).isOk = true

/-- Two waiter contexts differ at most in registers that nothing reads (rules R30, R105). -/
structure SameWaiter (w v : Waiter) : Prop where
  phase : w.phase = v.phase
  wantId : w.phase ≠ .idle → w.wantId = v.wantId
  inf : w.phase ≠ .idle → w.inf = v.inf
  start : w.phase ≠ .idle → w.start = v.start
  timeout : w.phase ≠ .idle → w.inf = false → w.timeout = v.timeout

/-- Two states differ at most in what rules R30 and R57 call unobservable: slots outside the pending
range, which slots hold the pending frames, `pending_frame` while `pending_valid = 0`, `xport` before its
first write after reset, and waiter registers that nothing reads. -/
structure SameView (s t : State) : Prop where
  params : s.params = t.params
  pending : pendingSeq s = pendingSeq t
  online : s.online = t.online
  pendingValid : s.pendingValid = t.pendingValid
  pendingFrame : s.pendingValid = true → s.pendingFrame = t.pendingFrame
  xportWritten : s.xportWritten = t.xportWritten
  xport : s.xportWritten = true → s.xport = t.xport
  lock : s.lock = t.lock
  kCross : s.kCross = t.kCross
  lockCross : s.lockCross = t.lockCross
  waitersLen : s.waiters.length = t.waiters.length
  waiters : ∀ (c : Nat) (w v : Waiter), s.waiters[c]? = some w → t.waiters[c]? = some v → SameWaiter w v
  now : s.now = t.now
  inputs : s.inputs = t.inputs
  out : s.out = t.out

/-- The phase of consumer `c`; `none` for a port the block does not have. -/
def phaseOf (s : State) (c : Nat) : Option Phase := (s.waiters[c]?).map (·.phase)

/-- The position of the oldest frame of a pending sequence with an identifier (rules R81, R101). -/
def oldestMatch (id : U64) (l : List Frame) : Option Nat := l.findIdx? (matchesId id)

/-- The frames of `l` with an identifier, in order (rule R50). -/
def withId (id : U64) (l : List Frame) : List Frame := l.filter (matchesId id)

/-- PUSH of every frame of a list in order (rule R90): the return values and the state. -/
def pushAll : List Frame → State → Except Fault (List Bool × State)
  | [], s => .ok ([], s)
  | f :: fs, s =>
    match push f s with
    | .error e => .error e
    | .ok (b, s') =>
      match pushAll fs s' with
      | .error e => .error e
      | .ok (bs, s'') => .ok (b :: bs, s'')

/-- The frames that an event hands to a consumer, as they stand on `C_RDATA`. -/
def deliveredBy : Event → List Nat
  | .done _ _ (some d) => [d]
  | .done _ _ none => []
  | .kDone _ => []
  | .tx _ _ => []
  | .ovf => []

/-- The consumer whose port carries an operation. -/
def consumerOf : Instr → Option Nat
  | .nop c => some c
  | .peek c _ => some c
  | .popAt c _ => some c
  | .clear c => some c
  | .waitFor c _ _ => some c
  | .waitForever c _ => some c
  | .send c _ => some c
  | .status c => some c
  | .rxFrame _ => none
  | .rxError => none
  | .knop => none
  | .reconnect _ => none

/-- The operations through which the pending sequence may change (rule R84); the waiter's scan is the one
micro-step that may. -/
def mayChangeRing : Instr → Bool
  | .nop _ => false
  | .peek _ _ => false
  | .popAt _ _ => true
  | .clear _ => true
  | .waitFor _ _ _ => false
  | .waitForever _ _ => false
  | .send _ _ => false
  | .status _ => false
  | .rxFrame _ => true
  | .rxError => false
  | .knop => false
  | .reconnect _ => false

/-- The acceptance of a wait by consumer `c` (rules R100, R105). -/
def startsWaitOf (c : Nat) : Instr → Bool
  | .nop _ => false
  | .peek _ _ => false
  | .popAt _ _ => false
  | .clear _ => false
  | .waitFor d _ _ => d == c
  | .waitForever d _ => d == c
  | .send _ _ => false
  | .status _ => false
  | .rxFrame _ => false
  | .rxError => false
  | .knop => false
  | .reconnect _ => false

/-- The pseudo-operation `drain` (rule R78) with at most `n` removals: the frames removed, oldest first,
until POP_AT 0 answers ILLEGAL_INDEX. -/
def drainRing : Nat → State → Except Fault (List Frame × State)
  | 0, s => .ok ([], s)
  | n + 1, s =>
    match popAtPos 0 s with
    | .error e => .error e
    | .ok (none, s') => .ok ([], s')
    | .ok (some f, s') =>
      match drainRing n s' with
      | .error e => .error e
      | .ok (fs, s'') => .ok (f :: fs, s'')

/-- The turn that the next step takes presents words that decode to `i` (rules R69, R70). -/
abbrev presents (s : State) (t : Turn) (i : Instr) : Prop :=
  ∃ w, t.act = .present w ∧ decode s.params w = .ok i

end Sys2Proof.Machine
end

