-- ==== Sys2Proof/Certificates/Slice0/Obligations.lean ====
section
/-! DEFINITION. The statements for the provers, in the order of OBLIGATIONS.json. -/

open Sys2Proof Sys2Proof.Machine

/-! ## Encodings -/

/-- Decode and encode agree for every operation, with every operand at every value its encoding admits
(rules R64 to R71). -/
def Obligations.DecodeOfEncodeIsTheOperation : Prop :=
  ∀ (p : Params) (i : Instr), i.wf p = true → decode p (encode i) = .ok i

/-- What the decoder answers is a well-formed operation: its port exists, its frame has the fixed size, its
handle fits `HANDLE_BITS` (rules R3, R10, R63, R74). -/
def Obligations.DecodedOperationsAreWellFormed : Prop :=
  ∀ (p : Params) (w : PortWords) (i : Instr), decode p w = .ok i → i.wf p = true

/-- Rules R60 and R61: the wire string has the frame's length, field after field with no padding, each
8-byte field little-endian, and `enc` and `dec` are inverse bijections. -/
def Obligations.FrameWireFormat : Prop :=
  (∀ (p : Params) (f : Frame), f.WF p →
    f.enc.length = p.frameBytes ∧
    (∀ j, j < 8 →
      f.enc[j]? = some (f.commandId.extractLsb' (8 * j) 8) ∧
      f.enc[8 + j]? = some (f.arg0.extractLsb' (8 * j) 8) ∧
      f.enc[16 + j]? = some (f.arg1.extractLsb' (8 * j) 8) ∧
      f.enc[24 + j]? = some (f.arg2.extractLsb' (8 * j) 8)) ∧
    (∀ j, j < p.payloadMax → f.enc[32 + j]? = f.payload[j]?) ∧
    Frame.dec f.enc = f) ∧
  (∀ (p : Params) (bs : List Byte), bs.length = p.frameBytes →
    (Frame.dec bs).WF p ∧ (Frame.dec bs).enc = bs)

/-- Rule R63: wire byte `k` is on bus bits `[8k+7 : 8k]`, so the fields are where the rule puts them, on the
buses that carry a frame out and on those that carry one in. -/
def Obligations.FrameBusLayout : Prop :=
  ∀ (p : Params) (f : Frame), f.WF p →
    frameBus f < 2 ^ p.frameBits ∧
    (∀ k, k < p.frameBytes → f.enc[k]? = some (BitVec.ofNat 8 (frameBus f / 2 ^ (8 * k)))) ∧
    f.commandId = BitVec.ofNat 64 (frameBus f) ∧
    f.arg0 = BitVec.ofNat 64 (frameBus f / 2 ^ 64) ∧
    f.arg1 = BitVec.ofNat 64 (frameBus f / 2 ^ 128) ∧
    f.arg2 = BitVec.ofNat 64 (frameBus f / 2 ^ 192) ∧
    (∀ j, j < p.payloadMax →
      f.payload[j]? = some (BitVec.ofNat 8 (frameBus f / 2 ^ (8 * (32 + j))))) ∧
    (∀ bus, bus < 2 ^ p.frameBits → (busFrame p bus).WF p ∧ frameBus (busFrame p bus) = bus)

/-- The fields of the request words (rules R64, R67) and of the response word (rule R65). -/
def Obligations.PortWordFields : Prop :=
  (∀ (op : BitVec 4) (a : U64) (t : U32),
    reqOp (reqWord op a t) = op ∧ reqRsv (reqWord op a t) = 0 ∧
    reqA (reqWord op a t) = a ∧ reqT (reqWord op a t) = t) ∧
  (∀ (op : BitVec 2) (h : U64), kReqOp (kReqWord op h) = op ∧ kReqH (kReqWord op h) = h) ∧
  (∀ (st : Status) (v : U64),
    (rspWord st v).extractLsb' 0 4 = st.code ∧ (rspWord st v).extractLsb' 4 4 = 0 ∧
    (rspWord st v).extractLsb' 8 64 = v)

/-- Operands an opcode does not use are ignored (rule R71): the operation depends on the opcode and on
nothing else (NOP, CLEAR, STATUS), on `A` (PEEK, POP_AT, WAIT_FOREVER), on `A` and `T` (WAIT_FOR), or on the
bus (SEND); KNOP ignores `H`, whatever its bits (rule R74 restricts the `H` of RECONNECT alone), and RX_ERROR
ignores the bus. -/
def Obligations.UnusedOperandsAreIgnored : Prop :=
  (∀ (p : Params) (c : Nat) (req req' : BitVec 104) (d d' : Nat),
    reqOp req' = reqOp req → reqRsv req' = reqRsv req →
    (reqOp req = 1 ∨ reqOp req = 2 ∨ reqOp req = 4 ∨ reqOp req = 5 → reqA req' = reqA req) →
    (reqOp req = 4 → reqT req' = reqT req) →
    (reqOp req = 6 → d' % 2 ^ p.frameBits = d % 2 ^ p.frameBits) →
    decode p (.consumer c req' d') = decode p (.consumer c req d)) ∧
  (∀ (p : Params) (req : BitVec 66), kReqOp req = 0 → decode p (.controller req) = .ok .knop) ∧
  (∀ (p : Params) (d : Nat), decode p (.producer 2 d) = .ok .rxError)

/-- Words written out from the encoding tables (vectors B0 of `95_test_vectors.md`) decode to the operations
they stand for, one and more of each port. -/
def Obligations.WrittenOutWordsDecode : Prop :=
  decode Params.vectors (.consumer 0 0x00000000000000000000000201 0) = .ok (.peek 0 2) ∧
  decode Params.vectors (.consumer 0 0x00000000000000000000000202 0) = .ok (.popAt 0 2) ∧
  decode Params.vectors (.consumer 1 0x00000009000000000000000503 0) = .ok (.clear 1) ∧
  decode Params.vectors (.consumer 0 0x00000064000000000000000704 0) = .ok (.waitFor 0 7 100) ∧
  decode Params.vectors (.consumer 0 0x00000000000000000000000008 0) = .error .reservedOpcode ∧
  decode Params.vectors (.consumer 0 0x00000000000000000000000013 0) = .error .reservedBits ∧
  decode Params.vectors (.controller 0x000000000000000A9) = .ok (.reconnect 0x2A) ∧
  decode Params.vectors (.controller 0x00000000000000401) = .error .handleBits ∧
  decode Params.vectors (.producer 2 0) = .ok .rxError

/-! ## Pointers, flags, status view -/

/-- Rule R14: the four pointer operations, total and closed on their ranges. -/
def Obligations.PointerArithmetic : Prop :=
  ∀ (p : Params) (q : Nat), 1 ≤ p.cmdBufferSize → q < p.ptrMod →
    (q = 2 * p.cmdBufferSize - 1 → ptrInc p q = 0) ∧
    (q ≠ 2 * p.cmdBufferSize - 1 → ptrInc p q = q + 1) ∧
    (∀ i, i ≤ p.cmdBufferSize →
      ptrAdd p q i = (q + i) % (2 * p.cmdBufferSize) ∧ ptrAdd p q i = (ptrInc p)^[i] q) ∧
    (q < p.cmdBufferSize → ptrSlot p q = q) ∧
    (p.cmdBufferSize ≤ q → ptrSlot p q = q - p.cmdBufferSize) ∧
    ptrSlot p q = q % p.cmdBufferSize ∧
    (∀ t, t < p.ptrMod →
      (t ≤ q → ptrCount p q t = q - t) ∧
      (q < t → (ptrCount p q t : Int) = (q : Int) - t + 2 * p.cmdBufferSize) ∧
      ptrCount p q t < p.ptrMod) ∧
    ptrInc p q < p.ptrMod ∧ (∀ i, ptrAdd p q i < p.ptrMod) ∧ ptrSlot p q < p.cmdBufferSize

/-- The pointers of an invariant state fit in `PTR_BITS` bits (`00_scope.md` section 4). -/
def Obligations.PointersFitPtrBits : Prop :=
  ∀ s : State, Inv s → s.head < 2 ^ s.params.ptrBits ∧ s.tail < 2 ^ s.params.ptrBits

/-- Rule R15: what `empty` and `full` say of the pointers and of the count. -/
def Obligations.EmptyAndFullFlags : Prop :=
  ∀ s : State, 1 ≤ s.params.cmdBufferSize → s.head < s.params.ptrMod → s.tail < s.params.ptrMod →
    s.count ≤ s.params.cmdBufferSize →
    (s.empty = true ↔ s.head = s.tail) ∧ (s.empty = true ↔ s.count = 0) ∧
    (s.full = true ↔ s.count = s.params.cmdBufferSize) ∧
    (s.full = true ↔ s.head ≠ s.tail ∧ ptrSlot s.params s.head = ptrSlot s.params s.tail)

/-- Rule R73: every field of the status view, for a count that its 32 bits hold. (For a larger count the
spec states no value and the model's is a free value: log 12.) -/
def Obligations.StatusViewFields : Prop :=
  ∀ s : State,
    (statusView s).getLsbD 0 = s.online ∧ (statusView s).getLsbD 1 = s.pendingValid ∧
    (statusView s).getLsbD 2 = s.empty ∧ (statusView s).getLsbD 3 = s.full ∧
    (statusView s).extractLsb' 4 4 = 0 ∧
    (s.count < 2 ^ 32 → (statusView s).extractLsb' 8 32 = BitVec.ofNat 32 s.count) ∧
    (statusView s).extractLsb' 40 24 = 0

/-! ## Reset and the invariant -/

/-- What reset leaves, for every set of parameters (rules R30, R180): the values the spec states, no slot
byte readable, every port ready but the producer's. `State.reset` is this state at the parameters of the
spec's vectors, which is the model's choice (log 1). -/
def Obligations.ResetLeavesTheStatedValues : Prop :=
  State.reset = State.resetWith Params.vectors ∧
  ∀ (p : Params) (s : State), s = State.resetWith p →
    s.params = p ∧ s.head = 0 ∧ s.tail = 0 ∧ s.count = 0 ∧ s.empty = true ∧
    (1 ≤ p.cmdBufferSize → s.full = false) ∧
    s.online = false ∧ s.pendingValid = false ∧ s.lock = .free ∧
    kReq s = false ∧ kAck s = false ∧ s.lockCross = .idle ∧
    (∀ c, c < p.numConsumers → phaseOf s c = some .idle ∧ cReady s c = true) ∧
    (∀ c, p.numConsumers ≤ c → phaseOf s c = none) ∧
    kReady s = true ∧ pReady s = false ∧ rxHandle s = none ∧
    (∀ a, Memory.read s.slots a = none) ∧ s.out = []

/-- Reset satisfies the invariant, for every legal set of parameters. -/
def Obligations.ResetSatisfiesTheInvariant : Prop :=
  ∀ p : Params, p.Valid → Inv (State.resetWith p)

/-- Every step keeps the invariant: rule R32, the canonical slot space, the register widths. -/
def Obligations.EveryStepKeepsTheInvariant : Prop :=
  ∀ s s' : State, Inv s → step s = .next s' → Inv s'

/-- No condition stops the block (rule R156): from an invariant state every step gives a next state, but
for an input on a consumer port that the block does not have, which is refused (log 15). -/
def Obligations.InvariantStatesAlwaysStep : Prop :=
  ∀ s : State, Inv s →
    (∃ s', step s = .next s') ∨
    (step s = .refused .noSuchPort ∧ ∃ t rest c, s.inputs = t :: rest ∧ s.params.numConsumers ≤ c ∧
      (t.act = .micro c ∨ ∃ req d, t.act = .present (.consumer c req d)))

/-- Nothing the spec calls unobservable is observable (rule R57): two invariant states that differ only in
slots outside the pending range, in which slots hold the pending frames, in `pending_frame` while nothing is
pending, in `xport` before its first write after reset, or in waiter registers that nothing reads, show the
same on every port (`RX_HANDLE` among the outputs) and take steps that again differ only so. The values the model chose for registers at reset (logs 5, 6, 7)
can therefore not be seen. -/
def Obligations.UnobservableStateStaysUnobservable : Prop :=
  ∀ s t s' : State, Inv s → Inv t → SameView s t → step s = .next s' →
    (pReady s = pReady t ∧ kReady s = kReady t ∧ rxHandle s = rxHandle t ∧ ∀ c, cReady s c = cReady t c) ∧
    ∃ t', step t = .next t' ∧ SameView s' t'

/-! ## The step -/

/-- A step runs the operation that the presented words decode to, or the micro-step of the agent whose turn
it is. What the step adds around it is the MODEL's choice, not the spec's: the script of turns, taken one by
one, and the idle step where none is left (log 2); the clock as the larger of the last reading and the one
presented (log 3); the outputs of the step before dropped (log 18). -/
def Obligations.StepRunsTheDecodedOperation : Prop :=
  ∀ s : State,
    (s.inputs = [] → step s = .next { s with out := [] }) ∧
    ∀ (t : Turn) (rest : List Turn) (s0 : State), s.inputs = t :: rest →
      s0 = { s with inputs := rest, now := if t.clock < s.now then s.now else t.clock, out := [] } →
      (∀ w i, t.act = .present w → decode s.params w = .ok i → step s = exec i s0) ∧
      (∀ c, t.act = .micro c → step s = microStep c s0)

/-- Rule R74: every illegal encoding is accepted from a ready port, changes no state, emits no event, and
is answered ILLEGAL_OP where the port has a response. A producer word with `P_EV = 0` is no event and is
ignored (rule R70), and an illegal word at a consumer or controller port that is not ready is not accepted and
gets no response (rule R75). What the rules do not give is the model's choice: the state `s0` of every clause,
in which the turn is taken off the script, the clock is read and the outputs are cleared (logs 2, 3, 18), and
that the turn of a word that is not accepted passes (log 22). -/
def Obligations.IllegalEncodingsChangeNothing : Prop :=
  ∀ (s : State) (t : Turn) (rest : List Turn) (s0 : State), s.inputs = t :: rest →
    s0 = { s with inputs := rest, now := if t.clock < s.now then s.now else t.clock, out := [] } →
    (∀ c req d, t.act = .present (.consumer c req d) → c < s.params.numConsumers →
      phaseOf s c = some .idle → (8 ≤ (reqOp req).toNat ∨ reqRsv req ≠ 0) →
      step s = .next { s0 with out := [.done c (rspWord .illegalOp 0) none] }) ∧
    (∀ req, t.act = .present (.controller req) → kReady s = true →
      (kReqOp req = 2 ∨ kReqOp req = 3 ∨ (kReqOp req = 1 ∧ 2 ^ s.params.handleBits ≤ (kReqH req).toNat)) →
      step s = .next { s0 with out := [.kDone Status.illegalOp.code] }) ∧
    (∀ d, t.act = .present (.producer 3 d) → step s = .next s0) ∧
    (∀ d, t.act = .present (.producer 0 d) → step s = .next s0) ∧
    (∀ c req d ph, t.act = .present (.consumer c req d) → c < s.params.numConsumers →
      phaseOf s c = some ph → ph ≠ .idle → (8 ≤ (reqOp req).toNat ∨ reqRsv req ≠ 0) →
      step s = .next s0) ∧
    (∀ req, t.act = .present (.controller req) → kReady s = false →
      (kReqOp req = 2 ∨ kReqOp req = 3 ∨ (kReqOp req = 1 ∧ 2 ^ s.params.handleBits ≤ (kReqH req).toNat)) →
      step s = .next s0)

/-- The clock that steps read never goes back (rule R25), whatever the environment presents (log 3). -/
def Obligations.ClockNeverGoesBack : Prop :=
  ∀ s s' : State, step s = .next s' → s.now ≤ s'.now

/-- No step changes a parameter (rule R4). -/
def Obligations.ParametersNeverChange : Prop :=
  ∀ s s' : State, step s = .next s' → s'.params = s.params

/-- A reset during a run (rules R180, R181; the model offers it as an input, log 19): every state element
as after reset, no response, no event; the clock, the parameters and the inputs to come stay. -/
def Obligations.ResetDuringRunAbandonsEverything : Prop :=
  ∀ (s : State) (t : Turn) (rest : List Turn), s.inputs = t :: rest → t.act = .reset →
    step s = .next { State.resetWith s.params with
      now := if t.clock < s.now then s.now else t.clock
      inputs := rest
      draws := s.draws }

/-! ## The ring buffer -/

/-- Rule R84, the sequence law: on the list of pending frames PUSH appends, dropping the oldest when full,
PEEK_MATCHING changes nothing and finds the oldest match, POP_AT deletes one element and keeps the order,
CLEAR empties, and no other operation or micro-step changes the list. -/
def Obligations.PrimitivesObeyTheSequenceLaw : Prop :=
  ∀ (s : State) (l : List Frame), Inv s → pendingSeq s = .ok l →
    (∀ f : Frame, f.WF s.params → ∃ t,
      push f s = .ok (decide (l.length < s.params.cmdBufferSize), t) ∧
      pendingSeq t = .ok (if l.length < s.params.cmdBufferSize then l ++ [f] else l.tail ++ [f])) ∧
    (∀ P : Frame → Bool, peekMatching P s = .ok (l.findIdx? P, s)) ∧
    (∀ i f, l[i]? = some f → ∃ t, popAtPos i s = .ok (some f, t) ∧ pendingSeq t = .ok (l.eraseIdx i)) ∧
    (∀ i, l.length ≤ i → popAtPos i s = .ok (none, s)) ∧
    pendingSeq (clearRing s) = .ok [] ∧
    (∀ i t, mayChangeRing i = false → exec i s = .next t → pendingSeq t = .ok l) ∧
    (∀ c t, phaseOf s c ≠ some .scan → microStep c s = .next t → pendingSeq t = .ok l)

/-- Rule R90: pushing `N + k` frames into an empty buffer answers true for the first `N` and false for the
others, leaves the last `N` pending in push order, and draining yields exactly those. -/
def Obligations.OverflowKeepsTheNewest : Prop :=
  ∀ (s : State) (fs : List Frame) (k : Nat), Inv s → pendingSeq s = .ok [] →
    (∀ f ∈ fs, f.WF s.params) → 1 ≤ k → fs.length = s.params.cmdBufferSize + k →
    ∃ t u, pushAll fs s =
        .ok (List.replicate s.params.cmdBufferSize true ++ List.replicate k false, t) ∧
      t.count = s.params.cmdBufferSize ∧ pendingSeq t = .ok (fs.drop k) ∧
      drainRing (s.params.cmdBufferSize + 1) t = .ok (fs.drop k, u) ∧ pendingSeq u = .ok []

/-- Rule R82: the primitive POP_AT at every position. Within range it returns the frame there, moves each
older frame's bytes one pending position towards `head`, writes no other slot byte and no other register
than `tail`; out of range it changes nothing (ILLEGAL_INDEX). -/
def Obligations.PopAtShiftsTheOlderFrames : Prop :=
  ∀ (s : State) (i : Nat), Inv s →
    (i < s.count → ∃ f t, popAtPos i s = .ok (some f, t) ∧ pendingAt s i = .ok f ∧
      t = { s with slots := t.slots, tail := ptrInc s.params s.tail } ∧
      t.count + 1 = s.count ∧ t.full = false ∧ (t.empty = true ↔ s.count = 1) ∧
      (∀ j, 1 ≤ j → j ≤ i → slotRead t (pendingSlot s j) = slotRead s (pendingSlot s (j - 1))) ∧
      (∀ a, (∀ j, 1 ≤ j → j ≤ i → ¬ inSlot s.params (pendingSlot s j) a) →
        Memory.read t.slots a = Memory.read s.slots a)) ∧
    (s.count ≤ i → popAtPos i s = .ok (none, s))

/-- Rule R88: NOP and KNOP answer OK and do nothing else, whatever the state, the lock held or not. -/
def Obligations.NopAndKnopOnlyAnswer : Prop :=
  ∀ s : State,
    (∀ c, phaseOf s c = some .idle →
      exec (.nop c) s = .next { s with out := s.out ++ [.done c (rspWord .ok 0) none] }) ∧
    (kReady s = true → exec .knop s = .next { s with out := s.out ++ [.kDone Status.ok.code] })

/-- Rule R85: PEEK answers OK with the position of the oldest pending frame that has the identifier in all
64 bits, or NO_MATCH with `V = 0`, and changes nothing. (A position that 64 bits cannot hold is a free value,
log 12.) -/
def Obligations.PeekAnswersTheOldestMatch : Prop :=
  ∀ (s : State) (c : Nat) (id : U64) (l : List Frame), Inv s → phaseOf s c = some .idle →
    pendingSeq s = .ok l → l.length < 2 ^ 64 →
    (∀ i, (∃ f, l[i]? = some f ∧ f.commandId = id) →
      (∀ j f, j < i → l[j]? = some f → f.commandId ≠ id) →
      exec (.peek c id) s =
        .next { s with out := s.out ++ [.done c (rspWord .ok (BitVec.ofNat 64 i)) none] }) ∧
    ((∀ f ∈ l, f.commandId ≠ id) →
      exec (.peek c id) s = .next { s with out := s.out ++ [.done c (rspWord .noMatch 0) none] })

/-- Rule R86: POP_AT at a pending position answers OK with that frame on `C_RDATA` and deletes it; at any
other position, compared in all 64 bits, it answers ILLEGAL_INDEX and changes nothing. The bytes stored to
are those of the slots of positions 1 to `A`; every other byte, and every register but `tail`, stays. -/
def Obligations.PopAtRemovesThePosition : Prop :=
  ∀ (s : State) (c : Nat) (a : U64) (l : List Frame), Inv s → phaseOf s c = some .idle →
    pendingSeq s = .ok l →
    (∀ f, l[a.toNat]? = some f → ∃ t, exec (.popAt c a) s = .next t ∧
      t = { s with
        slots := t.slots
        tail := ptrInc s.params s.tail
        out := s.out ++ [.done c (rspWord .ok 0) (some (frameBus f))] } ∧
      pendingSeq t = .ok (l.eraseIdx a.toNat) ∧
      (∀ x, (∀ j, 1 ≤ j → j ≤ a.toNat → ¬ inSlot s.params (pendingSlot s j) x) →
        Memory.read t.slots x = Memory.read s.slots x)) ∧
    (l.length ≤ a.toNat →
      exec (.popAt c a) s =
        .next { s with out := s.out ++ [.done c (rspWord .illegalIndex 0) none] })

/-- Rules R83 and R87: CLEAR makes `tail` equal to `head` and answers OK; no slot is read or written, and
nothing else changes. -/
def Obligations.ClearDiscardsEveryPendingFrame : Prop :=
  ∀ (s : State) (c : Nat), Inv s → phaseOf s c = some .idle →
    ∃ t, exec (.clear c) s = .next t ∧
      t = { s with tail := s.head, out := s.out ++ [.done c (rspWord .ok 0) none] } ∧
      t.count = 0 ∧ t.empty = true ∧ t.full = false ∧ pendingSeq t = .ok []

/-- Rule R89: STATUS answers OK with the status view and changes nothing. -/
def Obligations.StatusAnswersTheView : Prop :=
  ∀ (s : State) (c : Nat), Inv s → phaseOf s c = some .idle →
    exec (.status c) s = .next { s with out := s.out ++ [.done c (rspWord .ok (statusView s)) none] }

/-! ## The response waiter -/

/-- Rule R100: WAIT_FOR writes the waiter context of its consumer and nothing else; the lock is not
taken. -/
def Obligations.WaitForStartsAWait : Prop :=
  ∀ (s : State) (c : Nat) (id : U64) (t : U32) (w : Waiter), s.waiters[c]? = some w → w.phase = .idle →
    exec (.waitFor c id t) s = .next { s with
      waiters := s.waiters.set c
        { w with wantId := id, timeout := t, inf := false, start := s.now, phase := .scan } }

/-- Rule R105: WAIT_FOREVER writes the waiter context with `inf = 1` and some timeout value, which the spec
leaves unspecified and the model draws as a free value (log 8); with `inf = 1` W_CHECK always goes to
Sleep. -/
def Obligations.WaitForeverStartsAWaitWithNoTimeout : Prop :=
  (∀ (s : State) (c : Nat) (id : U64) (w : Waiter), s.waiters[c]? = some w → w.phase = .idle →
    ∃ v, exec (.waitForever c id) s = .next { s with
      waiters := s.waiters.set c
        { w with wantId := id, timeout := v, inf := true, start := s.now, phase := .scan }
      draws := s.draws + 1 }) ∧
  (∀ (s : State) (c : Nat) (w : Waiter), s.waiters[c]? = some w → w.phase = .check → w.inf = true →
    microStep c s = .next { s with waiters := s.waiters.set c { w with phase := .sleep } })

/-- Rule R101: W_SCAN removes and returns the oldest pending frame with the identifier and ends the wait, or
finds none and goes to Check with nothing else changed. It reads neither `online`, nor `now`, nor the
timeout. The bytes stored to are those of the slots of positions 1 to the one found. -/
def Obligations.ScanTakesTheOldestMatch : Prop :=
  ∀ (s : State) (c : Nat) (w : Waiter) (l : List Frame), Inv s → s.waiters[c]? = some w →
    w.phase = .scan → pendingSeq s = .ok l →
    (∀ i f, l[i]? = some f → f.commandId = w.wantId →
      (∀ j g, j < i → l[j]? = some g → g.commandId ≠ w.wantId) →
      ∃ t, microStep c s = .next t ∧
        t = { s with
          slots := t.slots
          tail := ptrInc s.params s.tail
          waiters := s.waiters.set c { w with phase := .idle }
          out := s.out ++ [.done c (rspWord .ok 0) (some (frameBus f))] } ∧
        pendingSeq t = .ok (l.eraseIdx i) ∧
        (∀ x, (∀ j, 1 ≤ j → j ≤ i → ¬ inSlot s.params (pendingSlot s j) x) →
          Memory.read t.slots x = Memory.read s.slots x)) ∧
    ((∀ f ∈ l, f.commandId ≠ w.wantId) →
      microStep c s = .next { s with waiters := s.waiters.set c { w with phase := .check } })

/-- Rule R50: a scan takes, of the frames with its identifier, the first; of every other identifier it
leaves the frames as they are; and the relative order of what stays does not change. -/
def Obligations.ScanIsFifoPerIdentifier : Prop :=
  ∀ (s t : State) (c : Nat) (w : Waiter) (l l' : List Frame), Inv s → s.waiters[c]? = some w →
    w.phase = .scan → microStep c s = .next t → pendingSeq s = .ok l → pendingSeq t = .ok l' →
    l'.Sublist l ∧ withId w.wantId l' = (withId w.wantId l).tail ∧
    (∀ id, id ≠ w.wantId → withId id l' = withId id l) ∧
    (∀ f, (withId w.wantId l).head? = some f →
      t.out = s.out ++ [.done c (rspWord .ok 0) (some (frameBus f))]) ∧
    ((withId w.wantId l).head? = none → t.out = s.out)

/-- Rule R102: W_CHECK ends a wait with NO_MATCH when the elapsed time, an exact difference, is strictly
more than the timeout and the wait has one; otherwise the wait sleeps. Nothing else changes. -/
def Obligations.CheckComparesStrictly : Prop :=
  ∀ (s : State) (c : Nat) (w : Waiter), Inv s → s.waiters[c]? = some w → w.phase = .check →
    (w.inf = false ∧ w.timeout.toNat < s.now.toNat - w.start.toNat →
      microStep c s = .next { s with
        waiters := s.waiters.set c { w with phase := .idle }
        out := s.out ++ [.done c (rspWord .noMatch 0) none] }) ∧
    (w.inf = true ∨ s.now.toNat - w.start.toNat ≤ w.timeout.toNat →
      microStep c s = .next { s with waiters := s.waiters.set c { w with phase := .sleep } })

/-- Rule R103: W_WAKE returns to Scan after a sleep of some length in `[0, POLL_MAX_MS]`, which is drawn
(log 9); nothing of the block's changes but the phase. -/
def Obligations.WakeReturnsToScan : Prop :=
  ∀ (s : State) (c : Nat) (w : Waiter), s.waiters[c]? = some w → w.phase = .sleep →
    ∃ d, d ≤ s.params.pollMaxMs ∧
      microStep c s = .next { s with
        waiters := s.waiters.set c { w with phase := .scan, slept := d }
        draws := s.draws + 1 }

/-- Rule R108: NO_MATCH is answered to a waiting consumer only by a W_CHECK whose clock shows strictly more
than the timeout since acceptance, and the wait has a timeout; the wait is then over. -/
def Obligations.NoMatchOnlyAfterTheTimeout : Prop :=
  ∀ (s s' : State) (t : Turn) (rest : List Turn) (c d : Nat) (w : Waiter) (x : Option Nat),
    Inv s → s.inputs = t :: rest → t.act = .micro c → s.waiters[c]? = some w → step s = .next s' →
    Event.done d (rspWord .noMatch 0) x ∈ s'.out →
    d = c ∧ w.phase = .check ∧ w.inf = false ∧
    s'.now.toNat - w.start.toNat > w.timeout.toNat ∧ phaseOf s' c = some .idle

/-- Rule R109, bounded: a WAIT_FOR about to scan, given its next two micro-steps, the second at a clock value
later than acceptance plus timeout, ends with OK or with NO_MATCH. -/
def Obligations.WaitForEndsOnceTheClockPasses : Prop :=
  ∀ (s : State) (c : Nat) (w : Waiter) (t1 t2 : U64) (rest : List Turn), Inv s →
    s.inputs = ⟨t1, .micro c⟩ :: ⟨t2, .micro c⟩ :: rest → s.waiters[c]? = some w → w.phase = .scan →
    w.inf = false → w.start.toNat + w.timeout.toNat < t2.toNat →
    ∃ s1 s2, step s = .next s1 ∧ step s1 = .next s2 ∧ phaseOf s2 c = some .idle ∧
      ((∃ d, s1.out = [.done c (rspWord .ok 0) (some d)]) ∨
        s2.out = [.done c (rspWord .noMatch 0) none])

/-- Rule R105 and `93_implementation_defined.md` U16: while no pending frame has its identifier, no
micro-step ends a WAIT_FOREVER or answers anything, and its context goes on from Scan to Check to Sleep to
Scan. -/
def Obligations.ForeverWaitWithNoMatchGoesOn : Prop :=
  ∀ (s : State) (c : Nat) (w : Waiter) (l : List Frame), Inv s → s.waiters[c]? = some w →
    w.phase ≠ .idle → w.inf = true → pendingSeq s = .ok l → withId w.wantId l = [] →
    ∃ t v, microStep c s = .next t ∧ t.waiters[c]? = some v ∧ v.inf = true ∧ v.wantId = w.wantId ∧
      t.out = s.out ∧ pendingSeq t = .ok l ∧
      (w.phase = .scan → v.phase = .check) ∧ (w.phase = .check → v.phase = .sleep) ∧
      (w.phase = .sleep → v.phase = .scan)

/-- Rule R112: no waiter micro-step depends on `online`. -/
def Obligations.MicroStepsIgnoreTheConnection : Prop :=
  ∀ (s t : State) (c : Nat) (b : Bool), microStep c s = .next t →
    microStep c { s with online := b } = .next { t with online := b }

/-- Rule R111: of two consumers that wait for one identifier with one matching frame pending, the one that
scans first gets it and the other finds none. -/
def Obligations.FirstScanWins : Prop :=
  ∀ (s : State) (c d : Nat) (w v : Waiter) (l : List Frame) (f : Frame), Inv s → c ≠ d →
    s.waiters[c]? = some w → s.waiters[d]? = some v → w.phase = .scan → v.phase = .scan →
    w.wantId = v.wantId → pendingSeq s = .ok l → withId w.wantId l = [f] →
    ∃ t u, microStep c s = .next t ∧ microStep d t = .next u ∧
      t.out = s.out ++ [.done c (rspWord .ok 0) (some (frameBus f))] ∧ u.out = t.out ∧
      phaseOf u c = some .idle ∧ phaseOf u d = some .check

/-- A waiter context changes only by its own consumer's micro-steps, by its consumer's WAIT_FOR or
WAIT_FOREVER, or by reset (rules R21, R110, R114): no push, clear, error or reconnect ends a wait or wakes a
sleeper. -/
def Obligations.NothingElseTouchesAWait : Prop :=
  ∀ (s s' : State) (t : Turn) (rest : List Turn) (c : Nat), s.inputs = t :: rest → step s = .next s' →
    t.act ≠ .reset → t.act ≠ .micro c → (∀ i, presents s t i → startsWaitOf c i = false) →
    s'.waiters[c]? = s.waiters[c]?

/-! ## Connection state, receiver, send -/

/-- Rules R80, R121 and R122: online, RX_FRAME pushes the frame as received, whole; a push that finds the
buffer full drops the oldest frame and emits OVF once; nothing else changes. The bytes stored to are those of
the slot of `head`. -/
def Obligations.RxFramePushes : Prop :=
  ∀ (s : State) (f : Frame) (l : List Frame), Inv s → s.online = true → f.WF s.params →
    pendingSeq s = .ok l →
    ∃ t, exec (.rxFrame f) s = .next t ∧
      t = { s with
        slots := t.slots
        head := ptrInc s.params s.head
        tail := if s.full then ptrInc s.params s.tail else s.tail
        out := if s.full then s.out ++ [.ovf] else s.out } ∧
      pendingSeq t = .ok (if s.full then l.tail ++ [f] else l ++ [f]) ∧
      t.count = (if s.full then s.params.cmdBufferSize else s.count + 1) ∧ t.empty = false ∧
      slotRead t (ptrSlot s.params s.head) = .ok f.enc ∧
      (∀ a, ¬ inSlot s.params (ptrSlot s.params s.head) a →
        Memory.read t.slots a = Memory.read s.slots a)

/-- Rule R123: online, RX_ERROR clears `online` and leaves everything else as it is. -/
def Obligations.RxErrorGoesOffline : Prop :=
  ∀ s : State, Inv s → s.online = true → exec .rxError s = .next { s with online := false }

/-- Rule R130: `P_READY = online`, and an event offered while offline is not consumed and changes
nothing. -/
def Obligations.OfflineProducerConsumesNothing : Prop :=
  ∀ s : State, pReady s = s.online ∧
    (s.online = false → (∀ f, exec (.rxFrame f) s = .next s) ∧ exec .rxError s = .next s)

/-- Rule R126: SEND transmits at once when online, and otherwise replaces `pending_frame`, and answers OK or
DEFERRED; it touches nothing else. -/
def Obligations.SendTransmitsOrDefers : Prop :=
  ∀ (s : State) (c : Nat) (f : Frame), Inv s → phaseOf s c = some .idle → f.WF s.params →
    (s.online = true →
      exec (.send c f) s = .next { s with
        out := s.out ++ [.tx (frameBus f) s.xport, .done c (rspWord .ok 0) none] }) ∧
    (s.online = false →
      exec (.send c f) s = .next { s with
        pendingFrame := f.enc
        pendingValid := true
        out := s.out ++ [.done c (rspWord .deferred 0) none] })

/-- Rules R124, R125 and R135: RECONNECT offline takes the handle, goes online and flushes the pending frame
first, once, with the new handle; online it is REFUSED and changes nothing; a handle field with bits at or
above `HANDLE_BITS` is ILLEGAL_OP before everything. -/
def Obligations.ReconnectFlushesFirst : Prop :=
  ∀ (s : State) (h : U64), Inv s →
    (h.toNat < 2 ^ s.params.handleBits → s.online = false → s.pendingValid = true →
      exec (.reconnect h) s = .next { s with
        xport := h
        xportWritten := true
        online := true
        pendingValid := false
        out := s.out ++ [.tx (frameBus (Frame.dec s.pendingFrame)) h, .kDone Status.ok.code] }) ∧
    (h.toNat < 2 ^ s.params.handleBits → s.online = false → s.pendingValid = false →
      exec (.reconnect h) s = .next { s with
        xport := h
        xportWritten := true
        online := true
        out := s.out ++ [.kDone Status.ok.code] }) ∧
    (h.toNat < 2 ^ s.params.handleBits → s.online = true →
      exec (.reconnect h) s = .next { s with out := s.out ++ [.kDone Status.refused.code] }) ∧
    (2 ^ s.params.handleBits ≤ h.toNat →
      exec (.reconnect h) s = .next { s with out := s.out ++ [.kDone Status.illegalOp.code] })

/-- Rule R128: of two sends while offline the second overwrites the first; the reconnect transmits exactly
the second, once; after a further disconnect and reconnect nothing is transmitted again. -/
def Obligations.LatestDeferredSendIsFlushedOnce : Prop :=
  ∀ (s : State) (c d : Nat) (x y : Frame) (h k : U64), Inv s → s.online = false →
    phaseOf s c = some .idle → phaseOf s d = some .idle → x.WF s.params → y.WF s.params →
    h.toNat < 2 ^ s.params.handleBits → k.toNat < 2 ^ s.params.handleBits →
    ∃ s1 s2 s3 s4 s5, exec (.send c x) s = .next s1 ∧ exec (.send d y) s1 = .next s2 ∧
      exec (.reconnect h) s2 = .next s3 ∧ exec .rxError s3 = .next s4 ∧
      exec (.reconnect k) s4 = .next s5 ∧
      s1.pendingFrame = x.enc ∧ s1.pendingValid = true ∧
      s2.pendingFrame = y.enc ∧ s2.pendingValid = true ∧ s3.pendingValid = false ∧
      s5.out = s.out ++ [.done c (rspWord .deferred 0) none, .done d (rspWord .deferred 0) none,
        .tx (frameBus y) h, .kDone Status.ok.code, .kDone Status.ok.code]

/-! ## Rules about the whole machine -/

/-- Rules R12 and R28: but for reset, `head` moves only by `+1 mod 2N`, and only when the producer's RX_FRAME
is consumed online. -/
def Obligations.OnlyTheProducerMovesHead : Prop :=
  ∀ (s s' : State) (t : Turn) (rest : List Turn), s.inputs = t :: rest → t.act ≠ .reset →
    step s = .next s' → s'.head ≠ s.head →
    s'.head = ptrInc s.params s.head ∧ s.online = true ∧ ∃ f, presents s t (.rxFrame f)

/-- Rule R16: but for reset, `online` is cleared only by RX_ERROR and set only by RECONNECT. -/
def Obligations.OnlyRxErrorAndReconnectWriteOnline : Prop :=
  ∀ (s s' : State) (t : Turn) (rest : List Turn), s.inputs = t :: rest → t.act ≠ .reset →
    step s = .next s' →
    (s.online = true → s'.online = false → presents s t .rxError) ∧
    (s.online = false → s'.online = true → ∃ h, presents s t (.reconnect h) ∧ s'.xport = h)

/-- Rule R17: but for reset, `pending_frame` is written only by SEND while offline, and emptied only by
RECONNECT while offline. -/
def Obligations.OnlySendAndReconnectWritePendingFrame : Prop :=
  ∀ (s s' : State) (t : Turn) (rest : List Turn), s.inputs = t :: rest → t.act ≠ .reset →
    step s = .next s' →
    (s'.pendingFrame ≠ s.pendingFrame ∨ (s.pendingValid = false ∧ s'.pendingValid = true) →
      s.online = false ∧ ∃ c f, presents s t (.send c f) ∧ s'.pendingFrame = f.enc ∧
        s'.pendingValid = true) ∧
    (s.pendingValid = true → s'.pendingValid = false →
      s.online = false ∧ ∃ h, presents s t (.reconnect h))

/-- Rules R51 and R52, the conservation of frames: in every step but a reset, the pending frames before and
the frame accepted are, as a collection, the pending frames after, the frame handed to a consumer and the
frames dropped. A frame is accepted only by RX_FRAME, at most one is handed over, and frames are dropped only
by CLEAR, or one by an overflow that OVF reports. -/
def Obligations.FramesAreConserved : Prop :=
  ∀ (s s' : State) (t : Turn) (rest : List Turn) (l l' : List Frame), Inv s → s.inputs = t :: rest →
    t.act ≠ .reset → step s = .next s' → pendingSeq s = .ok l → pendingSeq s' = .ok l' →
    ∃ accepted delivered dropped : List Frame,
      (l ++ accepted).Perm (l' ++ delivered ++ dropped) ∧
      s'.out.flatMap deliveredBy = delivered.map frameBus ∧ delivered.length ≤ 1 ∧
      (accepted = [] ∨ ∃ f, accepted = [f] ∧ s.online = true ∧ presents s t (.rxFrame f)) ∧
      (dropped = [] ∨ (∃ c, presents s t (.clear c)) ∨
        (dropped.length = 1 ∧ Event.ovf ∈ s'.out ∧ s.full = true))

/-- Rules R19, R68 and R134: every frame transmitted in a step carries the handle that is current at that
step, and is transmitted online. -/
def Obligations.TransmittedFramesCarryTheCurrentHandle : Prop :=
  ∀ (s s' : State) (x : Nat) (h : U64), step s = .next s' → Event.tx x h ∈ s'.out →
    s'.online = true ∧ s'.xport = h

/-- Rule R122: OVF is emitted only by the step of an RX_FRAME that found the buffer full, and once. -/
def Obligations.OverflowIsReportedOnceAndOnlyThen : Prop :=
  ∀ (s s' : State) (t : Turn) (rest : List Turn), s.inputs = t :: rest → step s = .next s' →
    s'.out.count Event.ovf ≤ 1 ∧
    (Event.ovf ∈ s'.out → s.online = true ∧ s.full = true ∧ ∃ f, presents s t (.rxFrame f))

/-- Rules R155 and R156: a consumer is answered only in a step of its own port or of its own wait, the
controller only in a step of its port; nothing is reported to anyone else. -/
def Obligations.AnswersGoOnlyToTheRequester : Prop :=
  ∀ (s s' : State) (t : Turn) (rest : List Turn), s.inputs = t :: rest → step s = .next s' →
    (∀ c r x, Event.done c r x ∈ s'.out →
      t.act = .micro c ∨ ∃ req d, t.act = .present (.consumer c req d)) ∧
    (∀ r, Event.kDone r ∈ s'.out → ∃ req, t.act = .present (.controller req))

/-! ## Ports that do not accept -/

/-- Rules R23 and R75: `C_READY[c]` says that consumer `c` is idle, and a request at a consumer port in the
middle of a wait is not accepted and changes nothing. -/
def Obligations.BusyPortAcceptsNothing : Prop :=
  ∀ (s : State) (c : Nat), (cReady s c = true ↔ phaseOf s c = some .idle) ∧
    ∀ (i : Instr) (w : Waiter), consumerOf i = some c → s.waiters[c]? = some w → w.phase ≠ .idle →
      exec i s = .next s

/-- The model's own refusals (logs 15, 16): an operation or micro-step of a consumer port the block does not
have, and a frame that is not of the fixed size on a port that would accept it. -/
def Obligations.AbsentPortsAndMalformedFramesAreRefused : Prop :=
  ∀ (s : State) (c : Nat),
    (s.waiters[c]? = none →
      (∀ i, consumerOf i = some c → exec i s = .refused .noSuchPort) ∧
      microStep c s = .refused .noSuchPort) ∧
    (∀ f : Frame, f.payload.length ≠ s.params.payloadMax →
      (phaseOf s c = some .idle → exec (.send c f) s = .refused .malformedFrame) ∧
      (s.online = true → exec (.rxFrame f) s = .refused .malformedFrame))

/-- Rule R47, at a state in the middle of another agent's body (which no operation boundary is; log 13): an
agent that finds the lock held has not taken its step, and nothing changes. -/
def Obligations.AHeldLockKeepsOthersOut : Prop :=
  ∀ (s : State) (a : Agent) (c : Nat), s.lock = .held a →
    (phaseOf s c = some .idle →
      (∀ id, exec (.peek c id) s = .next s) ∧ (∀ x, exec (.popAt c x) s = .next s) ∧
      exec (.clear c) s = .next s ∧ exec (.status c) s = .next s ∧
      (∀ f, f.WF s.params → exec (.send c f) s = .next s)) ∧
    (phaseOf s c = some .scan → microStep c s = .next s) ∧
    (∀ f, f.WF s.params → exec (.rxFrame f) s = .next s) ∧ exec .rxError s = .next s ∧
    (∀ h, h.toNat < 2 ^ s.params.handleBits → exec (.reconnect h) s = .next s)

/-! ## The handle output -/

/-- Rules R19 and R66: `RX_HANDLE` equals `xport`, online or offline, once a RECONNECT has written it, and
online it has been written. But for reset a step leaves `xport` and `RX_HANDLE` as they are (RX_ERROR among
them), or is a RECONNECT taken while offline, which puts its handle on both. (Before the first write the
output has no value: log 6.) -/
def Obligations.OnlyReconnectWritesTheHandle : Prop :=
  (∀ s : State, (s.xportWritten = true → rxHandle s = some s.xport) ∧
    (Inv s → s.online = true → rxHandle s = some s.xport)) ∧
  ∀ (s s' : State) (t : Turn) (rest : List Turn), s.inputs = t :: rest → t.act ≠ .reset →
    step s = .next s' →
    (s'.xport = s.xport ∧ rxHandle s' = rxHandle s) ∨
    (s.online = false ∧ ∃ h, presents s t (.reconnect h) ∧ s'.xport = h ∧ rxHandle s' = some h)
end

