-- ==== Sys2Proof/Laws/Operands.lean ====
section
/-! SUPPORT. What the operand forms do: little-endian strings and numbers, lengths, word fields. -/

namespace Sys2Proof

@[simp] theorem leBytes_length (n v : Nat) : (leBytes n v).length = n := by
  induction n generalizing v with
  | zero => rfl
  | succ n ih => simp [leBytes, ih]

theorem leValue_lt (bs : List Byte) : leValue bs < 256 ^ bs.length := by
  induction bs with
  | nil => simp [leValue]
  | cons b bs ih =>
    have hb : b.toNat < 256 := b.isLt
    simp only [leValue, List.length_cons, Nat.pow_succ]
    omega

/-- Reading back the bytes of a number gives the number, cut to the bytes there are. -/
theorem leValue_leBytes (n v : Nat) : leValue (leBytes n v) = v % 256 ^ n := by
  induction n generalizing v with
  | zero => simp [leValue, leBytes, Nat.mod_one]
  | succ n ih =>
    have h : (BitVec.ofNat 8 v).toNat = v % 256 := BitVec.toNat_ofNat v 8
    rw [leBytes, leValue, ih, h, show 256 ^ (n + 1) = 256 * 256 ^ n from Nat.pow_succ', Nat.mod_mul]

/-- The bytes of a string's number are the string. -/
theorem leBytes_leValue (bs : List Byte) : leBytes bs.length (leValue bs) = bs := by
  induction bs with
  | nil => rfl
  | cons b bs ih =>
    have hb : b.toNat < 256 := b.isLt
    have h1 : (b.toNat + 256 * leValue bs) / 256 = leValue bs := by omega
    have h2 : BitVec.ofNat 8 (b.toNat + 256 * leValue bs) = b := by
      apply BitVec.eq_of_toNat_eq
      simp only [BitVec.toNat_ofNat]
      omega
    simp only [List.length_cons, leValue, leBytes, h1, h2, ih]

theorem leBytes_mod (n v : Nat) : leBytes n (v % 256 ^ n) = leBytes n v := by
  have h := leBytes_leValue (leBytes n v)
  rwa [leBytes_length, leValue_leBytes] at h

theorem leValue_append (as bs : List Byte) :
    leValue (as ++ bs) = leValue as + 256 ^ as.length * leValue bs := by
  induction as with
  | nil => simp [leValue]
  | cons a as ih =>
    simp only [List.cons_append, leValue, ih, List.length_cons, Nat.pow_succ']
    ring

@[simp] theorem enc_length (f : Frame) : f.enc.length = 32 + f.payload.length := by
  simp only [Frame.enc, List.length_append, leBytes_length]
  omega

theorem enc_length_of_wf (p : Params) (f : Frame) (h : f.WF p) : f.enc.length = p.frameBytes := by
  simp only [enc_length, Params.frameBytes, h]

theorem zextOr_of_lt (w : Nat) (free : Nat → BitVec w) (n : Nat) (h : n < 2 ^ w) :
    zextOr w free n = BitVec.ofNat w n := if_pos h

/-- The status codes are different numbers (rule R72). -/
theorem status_code_injective (a b : Status) (h : a.code = b.code) : a = b := by
  cases a <;> cases b <;> first | rfl | (revert h; decide)

theorem append_toNat {m n : Nat} (x : BitVec m) (y : BitVec n) :
    (x ++ y).toNat = x.toNat * 2 ^ n + y.toNat := by
  rw [BitVec.toNat_append, ← Nat.shiftLeft_add_eq_or_of_lt y.isLt, Nat.shiftLeft_eq]

theorem reqWord_toNat (op : BitVec 4) (a : U64) (t : U32) :
    (reqWord op a t).toNat = t.toNat * 2 ^ 72 + a.toNat * 2 ^ 8 + op.toNat := by
  unfold reqWord
  have h : (0 : BitVec 4).toNat = 0 := rfl
  rw [append_toNat, append_toNat, append_toNat, h]
  omega

theorem kReqWord_toNat (op : BitVec 2) (h : U64) : (kReqWord op h).toNat = h.toNat * 2 ^ 2 + op.toNat :=
  append_toNat h op

theorem rspWord_toNat (st : Status) (v : U64) :
    (rspWord st v).toNat = v.toNat * 2 ^ 8 + st.code.toNat := by
  unfold rspWord
  have h : (0 : BitVec 4).toNat = 0 := rfl
  rw [append_toNat, append_toNat, h]
  omega

end Sys2Proof
end

