-- ==== Sys2Proof/Laws/State.lean ====
section
/-! SUPPORT. One lemma per field per update of State. -/

namespace Sys2Proof.Machine

open Sys2Proof

@[simp] theorem emit_params (e : Event) (s : State) : (emit e s).params = s.params := rfl
@[simp] theorem emit_slots (e : Event) (s : State) : (emit e s).slots = s.slots := rfl
@[simp] theorem emit_head (e : Event) (s : State) : (emit e s).head = s.head := rfl
@[simp] theorem emit_tail (e : Event) (s : State) : (emit e s).tail = s.tail := rfl
@[simp] theorem emit_online (e : Event) (s : State) : (emit e s).online = s.online := rfl
@[simp] theorem emit_pendingValid (e : Event) (s : State) : (emit e s).pendingValid = s.pendingValid := rfl
@[simp] theorem emit_pendingFrame (e : Event) (s : State) : (emit e s).pendingFrame = s.pendingFrame := rfl
@[simp] theorem emit_xport (e : Event) (s : State) : (emit e s).xport = s.xport := rfl
@[simp] theorem emit_xportWritten (e : Event) (s : State) : (emit e s).xportWritten = s.xportWritten := rfl
@[simp] theorem emit_lock (e : Event) (s : State) : (emit e s).lock = s.lock := rfl
@[simp] theorem emit_waiters (e : Event) (s : State) : (emit e s).waiters = s.waiters := rfl
@[simp] theorem emit_kCross (e : Event) (s : State) : (emit e s).kCross = s.kCross := rfl
@[simp] theorem emit_lockCross (e : Event) (s : State) : (emit e s).lockCross = s.lockCross := rfl
@[simp] theorem emit_now (e : Event) (s : State) : (emit e s).now = s.now := rfl
@[simp] theorem emit_inputs (e : Event) (s : State) : (emit e s).inputs = s.inputs := rfl
@[simp] theorem emit_out (e : Event) (s : State) : (emit e s).out = s.out ++ [e] := rfl
@[simp] theorem emit_draws (e : Event) (s : State) : (emit e s).draws = s.draws := rfl

@[simp] theorem respond_params (c : Nat) (st : Status) (v : U64) (d : Option Nat) (s : State) : (respond c st v d s).params = s.params := rfl
@[simp] theorem respond_slots (c : Nat) (st : Status) (v : U64) (d : Option Nat) (s : State) : (respond c st v d s).slots = s.slots := rfl
@[simp] theorem respond_head (c : Nat) (st : Status) (v : U64) (d : Option Nat) (s : State) : (respond c st v d s).head = s.head := rfl
@[simp] theorem respond_tail (c : Nat) (st : Status) (v : U64) (d : Option Nat) (s : State) : (respond c st v d s).tail = s.tail := rfl
@[simp] theorem respond_online (c : Nat) (st : Status) (v : U64) (d : Option Nat) (s : State) : (respond c st v d s).online = s.online := rfl
@[simp] theorem respond_pendingValid (c : Nat) (st : Status) (v : U64) (d : Option Nat) (s : State) : (respond c st v d s).pendingValid = s.pendingValid := rfl
@[simp] theorem respond_pendingFrame (c : Nat) (st : Status) (v : U64) (d : Option Nat) (s : State) : (respond c st v d s).pendingFrame = s.pendingFrame := rfl
@[simp] theorem respond_xport (c : Nat) (st : Status) (v : U64) (d : Option Nat) (s : State) : (respond c st v d s).xport = s.xport := rfl
@[simp] theorem respond_xportWritten (c : Nat) (st : Status) (v : U64) (d : Option Nat) (s : State) : (respond c st v d s).xportWritten = s.xportWritten := rfl
@[simp] theorem respond_lock (c : Nat) (st : Status) (v : U64) (d : Option Nat) (s : State) : (respond c st v d s).lock = s.lock := rfl
@[simp] theorem respond_waiters (c : Nat) (st : Status) (v : U64) (d : Option Nat) (s : State) : (respond c st v d s).waiters = s.waiters := rfl
@[simp] theorem respond_kCross (c : Nat) (st : Status) (v : U64) (d : Option Nat) (s : State) : (respond c st v d s).kCross = s.kCross := rfl
@[simp] theorem respond_lockCross (c : Nat) (st : Status) (v : U64) (d : Option Nat) (s : State) : (respond c st v d s).lockCross = s.lockCross := rfl
@[simp] theorem respond_now (c : Nat) (st : Status) (v : U64) (d : Option Nat) (s : State) : (respond c st v d s).now = s.now := rfl
@[simp] theorem respond_inputs (c : Nat) (st : Status) (v : U64) (d : Option Nat) (s : State) : (respond c st v d s).inputs = s.inputs := rfl
@[simp] theorem respond_out (c : Nat) (st : Status) (v : U64) (d : Option Nat) (s : State) : (respond c st v d s).out = s.out ++ [.done c (rspWord st v) d] := rfl
@[simp] theorem respond_draws (c : Nat) (st : Status) (v : U64) (d : Option Nat) (s : State) : (respond c st v d s).draws = s.draws := rfl

@[simp] theorem kRespond_params (st : Status) (s : State) : (kRespond st s).params = s.params := rfl
@[simp] theorem kRespond_slots (st : Status) (s : State) : (kRespond st s).slots = s.slots := rfl
@[simp] theorem kRespond_head (st : Status) (s : State) : (kRespond st s).head = s.head := rfl
@[simp] theorem kRespond_tail (st : Status) (s : State) : (kRespond st s).tail = s.tail := rfl
@[simp] theorem kRespond_online (st : Status) (s : State) : (kRespond st s).online = s.online := rfl
@[simp] theorem kRespond_pendingValid (st : Status) (s : State) : (kRespond st s).pendingValid = s.pendingValid := rfl
@[simp] theorem kRespond_pendingFrame (st : Status) (s : State) : (kRespond st s).pendingFrame = s.pendingFrame := rfl
@[simp] theorem kRespond_xport (st : Status) (s : State) : (kRespond st s).xport = s.xport := rfl
@[simp] theorem kRespond_xportWritten (st : Status) (s : State) : (kRespond st s).xportWritten = s.xportWritten := rfl
@[simp] theorem kRespond_lock (st : Status) (s : State) : (kRespond st s).lock = s.lock := rfl
@[simp] theorem kRespond_waiters (st : Status) (s : State) : (kRespond st s).waiters = s.waiters := rfl
@[simp] theorem kRespond_kCross (st : Status) (s : State) : (kRespond st s).kCross = s.kCross := rfl
@[simp] theorem kRespond_lockCross (st : Status) (s : State) : (kRespond st s).lockCross = s.lockCross := rfl
@[simp] theorem kRespond_now (st : Status) (s : State) : (kRespond st s).now = s.now := rfl
@[simp] theorem kRespond_inputs (st : Status) (s : State) : (kRespond st s).inputs = s.inputs := rfl
@[simp] theorem kRespond_out (st : Status) (s : State) : (kRespond st s).out = s.out ++ [.kDone st.code] := rfl
@[simp] theorem kRespond_draws (st : Status) (s : State) : (kRespond st s).draws = s.draws := rfl

@[simp] theorem emitTx_params (f : Frame) (s : State) : (emitTx f s).params = s.params := rfl
@[simp] theorem emitTx_slots (f : Frame) (s : State) : (emitTx f s).slots = s.slots := rfl
@[simp] theorem emitTx_head (f : Frame) (s : State) : (emitTx f s).head = s.head := rfl
@[simp] theorem emitTx_tail (f : Frame) (s : State) : (emitTx f s).tail = s.tail := rfl
@[simp] theorem emitTx_online (f : Frame) (s : State) : (emitTx f s).online = s.online := rfl
@[simp] theorem emitTx_pendingValid (f : Frame) (s : State) : (emitTx f s).pendingValid = s.pendingValid := rfl
@[simp] theorem emitTx_pendingFrame (f : Frame) (s : State) : (emitTx f s).pendingFrame = s.pendingFrame := rfl
@[simp] theorem emitTx_xport (f : Frame) (s : State) : (emitTx f s).xport = s.xport := rfl
@[simp] theorem emitTx_xportWritten (f : Frame) (s : State) : (emitTx f s).xportWritten = s.xportWritten := rfl
@[simp] theorem emitTx_lock (f : Frame) (s : State) : (emitTx f s).lock = s.lock := rfl
@[simp] theorem emitTx_waiters (f : Frame) (s : State) : (emitTx f s).waiters = s.waiters := rfl
@[simp] theorem emitTx_kCross (f : Frame) (s : State) : (emitTx f s).kCross = s.kCross := rfl
@[simp] theorem emitTx_lockCross (f : Frame) (s : State) : (emitTx f s).lockCross = s.lockCross := rfl
@[simp] theorem emitTx_now (f : Frame) (s : State) : (emitTx f s).now = s.now := rfl
@[simp] theorem emitTx_inputs (f : Frame) (s : State) : (emitTx f s).inputs = s.inputs := rfl
@[simp] theorem emitTx_out (f : Frame) (s : State) : (emitTx f s).out = s.out ++ [.tx (frameBus f) s.xport] := rfl
@[simp] theorem emitTx_draws (f : Frame) (s : State) : (emitTx f s).draws = s.draws := rfl

@[simp] theorem lockRequest_params (a : Agent) (s : State) : (lockRequest a s).params = s.params := by cases a <;> rfl
@[simp] theorem lockRequest_slots (a : Agent) (s : State) : (lockRequest a s).slots = s.slots := by cases a <;> rfl
@[simp] theorem lockRequest_head (a : Agent) (s : State) : (lockRequest a s).head = s.head := by cases a <;> rfl
@[simp] theorem lockRequest_tail (a : Agent) (s : State) : (lockRequest a s).tail = s.tail := by cases a <;> rfl
@[simp] theorem lockRequest_online (a : Agent) (s : State) : (lockRequest a s).online = s.online := by cases a <;> rfl
@[simp] theorem lockRequest_pendingValid (a : Agent) (s : State) : (lockRequest a s).pendingValid = s.pendingValid := by cases a <;> rfl
@[simp] theorem lockRequest_pendingFrame (a : Agent) (s : State) : (lockRequest a s).pendingFrame = s.pendingFrame := by cases a <;> rfl
@[simp] theorem lockRequest_xport (a : Agent) (s : State) : (lockRequest a s).xport = s.xport := by cases a <;> rfl
@[simp] theorem lockRequest_xportWritten (a : Agent) (s : State) : (lockRequest a s).xportWritten = s.xportWritten := by cases a <;> rfl
@[simp] theorem lockRequest_lock (a : Agent) (s : State) : (lockRequest a s).lock = s.lock := by cases a <;> rfl
@[simp] theorem lockRequest_waiters (a : Agent) (s : State) : (lockRequest a s).waiters = s.waiters := by cases a <;> rfl
@[simp] theorem lockRequest_kCross (a : Agent) (s : State) : (lockRequest a s).kCross = s.kCross := by cases a <;> rfl
@[simp] theorem lockRequest_now (a : Agent) (s : State) : (lockRequest a s).now = s.now := by cases a <;> rfl
@[simp] theorem lockRequest_inputs (a : Agent) (s : State) : (lockRequest a s).inputs = s.inputs := by cases a <;> rfl
@[simp] theorem lockRequest_out (a : Agent) (s : State) : (lockRequest a s).out = s.out := by cases a <;> rfl
@[simp] theorem lockRequest_draws (a : Agent) (s : State) : (lockRequest a s).draws = s.draws := by cases a <;> rfl

@[simp] theorem lockGrant_params (a : Agent) (s : State) : (lockGrant a s).params = s.params := by cases a <;> rfl
@[simp] theorem lockGrant_slots (a : Agent) (s : State) : (lockGrant a s).slots = s.slots := by cases a <;> rfl
@[simp] theorem lockGrant_head (a : Agent) (s : State) : (lockGrant a s).head = s.head := by cases a <;> rfl
@[simp] theorem lockGrant_tail (a : Agent) (s : State) : (lockGrant a s).tail = s.tail := by cases a <;> rfl
@[simp] theorem lockGrant_online (a : Agent) (s : State) : (lockGrant a s).online = s.online := by cases a <;> rfl
@[simp] theorem lockGrant_pendingValid (a : Agent) (s : State) : (lockGrant a s).pendingValid = s.pendingValid := by cases a <;> rfl
@[simp] theorem lockGrant_pendingFrame (a : Agent) (s : State) : (lockGrant a s).pendingFrame = s.pendingFrame := by cases a <;> rfl
@[simp] theorem lockGrant_xport (a : Agent) (s : State) : (lockGrant a s).xport = s.xport := by cases a <;> rfl
@[simp] theorem lockGrant_xportWritten (a : Agent) (s : State) : (lockGrant a s).xportWritten = s.xportWritten := by cases a <;> rfl
@[simp] theorem lockGrant_lock (a : Agent) (s : State) : (lockGrant a s).lock = .held a := by cases a <;> rfl
@[simp] theorem lockGrant_waiters (a : Agent) (s : State) : (lockGrant a s).waiters = s.waiters := by cases a <;> rfl
@[simp] theorem lockGrant_kCross (a : Agent) (s : State) : (lockGrant a s).kCross = s.kCross := by cases a <;> rfl
@[simp] theorem lockGrant_now (a : Agent) (s : State) : (lockGrant a s).now = s.now := by cases a <;> rfl
@[simp] theorem lockGrant_inputs (a : Agent) (s : State) : (lockGrant a s).inputs = s.inputs := by cases a <;> rfl
@[simp] theorem lockGrant_out (a : Agent) (s : State) : (lockGrant a s).out = s.out := by cases a <;> rfl
@[simp] theorem lockGrant_draws (a : Agent) (s : State) : (lockGrant a s).draws = s.draws := by cases a <;> rfl

@[simp] theorem lockRelease_params (s : State) : (lockRelease s).params = s.params := rfl
@[simp] theorem lockRelease_slots (s : State) : (lockRelease s).slots = s.slots := rfl
@[simp] theorem lockRelease_head (s : State) : (lockRelease s).head = s.head := rfl
@[simp] theorem lockRelease_tail (s : State) : (lockRelease s).tail = s.tail := rfl
@[simp] theorem lockRelease_online (s : State) : (lockRelease s).online = s.online := rfl
@[simp] theorem lockRelease_pendingValid (s : State) : (lockRelease s).pendingValid = s.pendingValid := rfl
@[simp] theorem lockRelease_pendingFrame (s : State) : (lockRelease s).pendingFrame = s.pendingFrame := rfl
@[simp] theorem lockRelease_xport (s : State) : (lockRelease s).xport = s.xport := rfl
@[simp] theorem lockRelease_xportWritten (s : State) : (lockRelease s).xportWritten = s.xportWritten := rfl
@[simp] theorem lockRelease_lock (s : State) : (lockRelease s).lock = .free := rfl
@[simp] theorem lockRelease_waiters (s : State) : (lockRelease s).waiters = s.waiters := rfl
@[simp] theorem lockRelease_kCross (s : State) : (lockRelease s).kCross = s.kCross := rfl
@[simp] theorem lockRelease_lockCross (s : State) : (lockRelease s).lockCross = .idle := rfl
@[simp] theorem lockRelease_now (s : State) : (lockRelease s).now = s.now := rfl
@[simp] theorem lockRelease_inputs (s : State) : (lockRelease s).inputs = s.inputs := rfl
@[simp] theorem lockRelease_out (s : State) : (lockRelease s).out = s.out := rfl
@[simp] theorem lockRelease_draws (s : State) : (lockRelease s).draws = s.draws := rfl

@[simp] theorem clearRing_params (s : State) : (clearRing s).params = s.params := rfl
@[simp] theorem clearRing_slots (s : State) : (clearRing s).slots = s.slots := rfl
@[simp] theorem clearRing_head (s : State) : (clearRing s).head = s.head := rfl
@[simp] theorem clearRing_tail (s : State) : (clearRing s).tail = s.head := rfl
@[simp] theorem clearRing_online (s : State) : (clearRing s).online = s.online := rfl
@[simp] theorem clearRing_pendingValid (s : State) : (clearRing s).pendingValid = s.pendingValid := rfl
@[simp] theorem clearRing_pendingFrame (s : State) : (clearRing s).pendingFrame = s.pendingFrame := rfl
@[simp] theorem clearRing_xport (s : State) : (clearRing s).xport = s.xport := rfl
@[simp] theorem clearRing_xportWritten (s : State) : (clearRing s).xportWritten = s.xportWritten := rfl
@[simp] theorem clearRing_lock (s : State) : (clearRing s).lock = s.lock := rfl
@[simp] theorem clearRing_waiters (s : State) : (clearRing s).waiters = s.waiters := rfl
@[simp] theorem clearRing_kCross (s : State) : (clearRing s).kCross = s.kCross := rfl
@[simp] theorem clearRing_lockCross (s : State) : (clearRing s).lockCross = s.lockCross := rfl
@[simp] theorem clearRing_now (s : State) : (clearRing s).now = s.now := rfl
@[simp] theorem clearRing_inputs (s : State) : (clearRing s).inputs = s.inputs := rfl
@[simp] theorem clearRing_out (s : State) : (clearRing s).out = s.out := rfl
@[simp] theorem clearRing_draws (s : State) : (clearRing s).draws = s.draws := rfl

@[simp] theorem goOffline_params (s : State) : (goOffline s).params = s.params := rfl
@[simp] theorem goOffline_slots (s : State) : (goOffline s).slots = s.slots := rfl
@[simp] theorem goOffline_head (s : State) : (goOffline s).head = s.head := rfl
@[simp] theorem goOffline_tail (s : State) : (goOffline s).tail = s.tail := rfl
@[simp] theorem goOffline_online (s : State) : (goOffline s).online = false := rfl
@[simp] theorem goOffline_pendingValid (s : State) : (goOffline s).pendingValid = s.pendingValid := rfl
@[simp] theorem goOffline_pendingFrame (s : State) : (goOffline s).pendingFrame = s.pendingFrame := rfl
@[simp] theorem goOffline_xport (s : State) : (goOffline s).xport = s.xport := rfl
@[simp] theorem goOffline_xportWritten (s : State) : (goOffline s).xportWritten = s.xportWritten := rfl
@[simp] theorem goOffline_lock (s : State) : (goOffline s).lock = s.lock := rfl
@[simp] theorem goOffline_waiters (s : State) : (goOffline s).waiters = s.waiters := rfl
@[simp] theorem goOffline_kCross (s : State) : (goOffline s).kCross = s.kCross := rfl
@[simp] theorem goOffline_lockCross (s : State) : (goOffline s).lockCross = s.lockCross := rfl
@[simp] theorem goOffline_now (s : State) : (goOffline s).now = s.now := rfl
@[simp] theorem goOffline_inputs (s : State) : (goOffline s).inputs = s.inputs := rfl
@[simp] theorem goOffline_out (s : State) : (goOffline s).out = s.out := rfl
@[simp] theorem goOffline_draws (s : State) : (goOffline s).draws = s.draws := rfl

@[simp] theorem kLatch_params (h : U64) (s : State) : (kLatch h s).params = s.params := rfl
@[simp] theorem kLatch_slots (h : U64) (s : State) : (kLatch h s).slots = s.slots := rfl
@[simp] theorem kLatch_head (h : U64) (s : State) : (kLatch h s).head = s.head := rfl
@[simp] theorem kLatch_tail (h : U64) (s : State) : (kLatch h s).tail = s.tail := rfl
@[simp] theorem kLatch_online (h : U64) (s : State) : (kLatch h s).online = s.online := rfl
@[simp] theorem kLatch_pendingValid (h : U64) (s : State) : (kLatch h s).pendingValid = s.pendingValid := rfl
@[simp] theorem kLatch_pendingFrame (h : U64) (s : State) : (kLatch h s).pendingFrame = s.pendingFrame := rfl
@[simp] theorem kLatch_xport (h : U64) (s : State) : (kLatch h s).xport = s.xport := rfl
@[simp] theorem kLatch_xportWritten (h : U64) (s : State) : (kLatch h s).xportWritten = s.xportWritten := rfl
@[simp] theorem kLatch_lock (h : U64) (s : State) : (kLatch h s).lock = s.lock := rfl
@[simp] theorem kLatch_waiters (h : U64) (s : State) : (kLatch h s).waiters = s.waiters := rfl
@[simp] theorem kLatch_kCross (h : U64) (s : State) : (kLatch h s).kCross = .request h := rfl
@[simp] theorem kLatch_lockCross (h : U64) (s : State) : (kLatch h s).lockCross = s.lockCross := rfl
@[simp] theorem kLatch_now (h : U64) (s : State) : (kLatch h s).now = s.now := rfl
@[simp] theorem kLatch_inputs (h : U64) (s : State) : (kLatch h s).inputs = s.inputs := rfl
@[simp] theorem kLatch_out (h : U64) (s : State) : (kLatch h s).out = s.out := rfl
@[simp] theorem kLatch_draws (h : U64) (s : State) : (kLatch h s).draws = s.draws := rfl

@[simp] theorem kDrop_params (st : Status) (s : State) : (kDrop st s).params = s.params := rfl
@[simp] theorem kDrop_slots (st : Status) (s : State) : (kDrop st s).slots = s.slots := rfl
@[simp] theorem kDrop_head (st : Status) (s : State) : (kDrop st s).head = s.head := rfl
@[simp] theorem kDrop_tail (st : Status) (s : State) : (kDrop st s).tail = s.tail := rfl
@[simp] theorem kDrop_online (st : Status) (s : State) : (kDrop st s).online = s.online := rfl
@[simp] theorem kDrop_pendingValid (st : Status) (s : State) : (kDrop st s).pendingValid = s.pendingValid := rfl
@[simp] theorem kDrop_pendingFrame (st : Status) (s : State) : (kDrop st s).pendingFrame = s.pendingFrame := rfl
@[simp] theorem kDrop_xport (st : Status) (s : State) : (kDrop st s).xport = s.xport := rfl
@[simp] theorem kDrop_xportWritten (st : Status) (s : State) : (kDrop st s).xportWritten = s.xportWritten := rfl
@[simp] theorem kDrop_lock (st : Status) (s : State) : (kDrop st s).lock = s.lock := rfl
@[simp] theorem kDrop_waiters (st : Status) (s : State) : (kDrop st s).waiters = s.waiters := rfl
@[simp] theorem kDrop_kCross (st : Status) (s : State) : (kDrop st s).kCross = .release st := rfl
@[simp] theorem kDrop_lockCross (st : Status) (s : State) : (kDrop st s).lockCross = s.lockCross := rfl
@[simp] theorem kDrop_now (st : Status) (s : State) : (kDrop st s).now = s.now := rfl
@[simp] theorem kDrop_inputs (st : Status) (s : State) : (kDrop st s).inputs = s.inputs := rfl
@[simp] theorem kDrop_out (st : Status) (s : State) : (kDrop st s).out = s.out := rfl
@[simp] theorem kDrop_draws (st : Status) (s : State) : (kDrop st s).draws = s.draws := rfl

@[simp] theorem kFinish_params (st : Status) (s : State) : (kFinish st s).params = s.params := rfl
@[simp] theorem kFinish_slots (st : Status) (s : State) : (kFinish st s).slots = s.slots := rfl
@[simp] theorem kFinish_head (st : Status) (s : State) : (kFinish st s).head = s.head := rfl
@[simp] theorem kFinish_tail (st : Status) (s : State) : (kFinish st s).tail = s.tail := rfl
@[simp] theorem kFinish_online (st : Status) (s : State) : (kFinish st s).online = s.online := rfl
@[simp] theorem kFinish_pendingValid (st : Status) (s : State) : (kFinish st s).pendingValid = s.pendingValid := rfl
@[simp] theorem kFinish_pendingFrame (st : Status) (s : State) : (kFinish st s).pendingFrame = s.pendingFrame := rfl
@[simp] theorem kFinish_xport (st : Status) (s : State) : (kFinish st s).xport = s.xport := rfl
@[simp] theorem kFinish_xportWritten (st : Status) (s : State) : (kFinish st s).xportWritten = s.xportWritten := rfl
@[simp] theorem kFinish_lock (st : Status) (s : State) : (kFinish st s).lock = s.lock := rfl
@[simp] theorem kFinish_waiters (st : Status) (s : State) : (kFinish st s).waiters = s.waiters := rfl
@[simp] theorem kFinish_kCross (st : Status) (s : State) : (kFinish st s).kCross = .idle := rfl
@[simp] theorem kFinish_lockCross (st : Status) (s : State) : (kFinish st s).lockCross = s.lockCross := rfl
@[simp] theorem kFinish_now (st : Status) (s : State) : (kFinish st s).now = s.now := rfl
@[simp] theorem kFinish_inputs (st : Status) (s : State) : (kFinish st s).inputs = s.inputs := rfl
@[simp] theorem kFinish_out (st : Status) (s : State) : (kFinish st s).out = s.out ++ [.kDone st.code] := rfl
@[simp] theorem kFinish_draws (st : Status) (s : State) : (kFinish st s).draws = s.draws := rfl

@[simp] theorem setWaiter_params (c : Nat) (w : Waiter) (s : State) : (setWaiter c w s).params = s.params := rfl
@[simp] theorem setWaiter_slots (c : Nat) (w : Waiter) (s : State) : (setWaiter c w s).slots = s.slots := rfl
@[simp] theorem setWaiter_head (c : Nat) (w : Waiter) (s : State) : (setWaiter c w s).head = s.head := rfl
@[simp] theorem setWaiter_tail (c : Nat) (w : Waiter) (s : State) : (setWaiter c w s).tail = s.tail := rfl
@[simp] theorem setWaiter_online (c : Nat) (w : Waiter) (s : State) : (setWaiter c w s).online = s.online := rfl
@[simp] theorem setWaiter_pendingValid (c : Nat) (w : Waiter) (s : State) : (setWaiter c w s).pendingValid = s.pendingValid := rfl
@[simp] theorem setWaiter_pendingFrame (c : Nat) (w : Waiter) (s : State) : (setWaiter c w s).pendingFrame = s.pendingFrame := rfl
@[simp] theorem setWaiter_xport (c : Nat) (w : Waiter) (s : State) : (setWaiter c w s).xport = s.xport := rfl
@[simp] theorem setWaiter_xportWritten (c : Nat) (w : Waiter) (s : State) : (setWaiter c w s).xportWritten = s.xportWritten := rfl
@[simp] theorem setWaiter_lock (c : Nat) (w : Waiter) (s : State) : (setWaiter c w s).lock = s.lock := rfl
@[simp] theorem setWaiter_waiters (c : Nat) (w : Waiter) (s : State) : (setWaiter c w s).waiters = s.waiters.set c w := rfl
@[simp] theorem setWaiter_kCross (c : Nat) (w : Waiter) (s : State) : (setWaiter c w s).kCross = s.kCross := rfl
@[simp] theorem setWaiter_lockCross (c : Nat) (w : Waiter) (s : State) : (setWaiter c w s).lockCross = s.lockCross := rfl
@[simp] theorem setWaiter_now (c : Nat) (w : Waiter) (s : State) : (setWaiter c w s).now = s.now := rfl
@[simp] theorem setWaiter_inputs (c : Nat) (w : Waiter) (s : State) : (setWaiter c w s).inputs = s.inputs := rfl
@[simp] theorem setWaiter_out (c : Nat) (w : Waiter) (s : State) : (setWaiter c w s).out = s.out := rfl
@[simp] theorem setWaiter_draws (c : Nat) (w : Waiter) (s : State) : (setWaiter c w s).draws = s.draws := rfl

@[simp] theorem drawNext_params (s : State) : (drawNext s).params = s.params := rfl
@[simp] theorem drawNext_slots (s : State) : (drawNext s).slots = s.slots := rfl
@[simp] theorem drawNext_head (s : State) : (drawNext s).head = s.head := rfl
@[simp] theorem drawNext_tail (s : State) : (drawNext s).tail = s.tail := rfl
@[simp] theorem drawNext_online (s : State) : (drawNext s).online = s.online := rfl
@[simp] theorem drawNext_pendingValid (s : State) : (drawNext s).pendingValid = s.pendingValid := rfl
@[simp] theorem drawNext_pendingFrame (s : State) : (drawNext s).pendingFrame = s.pendingFrame := rfl
@[simp] theorem drawNext_xport (s : State) : (drawNext s).xport = s.xport := rfl
@[simp] theorem drawNext_xportWritten (s : State) : (drawNext s).xportWritten = s.xportWritten := rfl
@[simp] theorem drawNext_lock (s : State) : (drawNext s).lock = s.lock := rfl
@[simp] theorem drawNext_waiters (s : State) : (drawNext s).waiters = s.waiters := rfl
@[simp] theorem drawNext_kCross (s : State) : (drawNext s).kCross = s.kCross := rfl
@[simp] theorem drawNext_lockCross (s : State) : (drawNext s).lockCross = s.lockCross := rfl
@[simp] theorem drawNext_now (s : State) : (drawNext s).now = s.now := rfl
@[simp] theorem drawNext_inputs (s : State) : (drawNext s).inputs = s.inputs := rfl
@[simp] theorem drawNext_out (s : State) : (drawNext s).out = s.out := rfl
@[simp] theorem drawNext_draws (s : State) : (drawNext s).draws = s.draws + 1 := rfl

@[simp] theorem idleStep_params (s : State) : (idleStep s).params = s.params := rfl
@[simp] theorem idleStep_slots (s : State) : (idleStep s).slots = s.slots := rfl
@[simp] theorem idleStep_head (s : State) : (idleStep s).head = s.head := rfl
@[simp] theorem idleStep_tail (s : State) : (idleStep s).tail = s.tail := rfl
@[simp] theorem idleStep_online (s : State) : (idleStep s).online = s.online := rfl
@[simp] theorem idleStep_pendingValid (s : State) : (idleStep s).pendingValid = s.pendingValid := rfl
@[simp] theorem idleStep_pendingFrame (s : State) : (idleStep s).pendingFrame = s.pendingFrame := rfl
@[simp] theorem idleStep_xport (s : State) : (idleStep s).xport = s.xport := rfl
@[simp] theorem idleStep_xportWritten (s : State) : (idleStep s).xportWritten = s.xportWritten := rfl
@[simp] theorem idleStep_lock (s : State) : (idleStep s).lock = s.lock := rfl
@[simp] theorem idleStep_waiters (s : State) : (idleStep s).waiters = s.waiters := rfl
@[simp] theorem idleStep_kCross (s : State) : (idleStep s).kCross = s.kCross := rfl
@[simp] theorem idleStep_lockCross (s : State) : (idleStep s).lockCross = s.lockCross := rfl
@[simp] theorem idleStep_now (s : State) : (idleStep s).now = s.now := rfl
@[simp] theorem idleStep_inputs (s : State) : (idleStep s).inputs = s.inputs := rfl
@[simp] theorem idleStep_out (s : State) : (idleStep s).out = [] := rfl
@[simp] theorem idleStep_draws (s : State) : (idleStep s).draws = s.draws := rfl

@[simp] theorem beginTurn_params (t : Turn) (rest : List Turn) (s : State) : (beginTurn t rest s).params = s.params := rfl
@[simp] theorem beginTurn_slots (t : Turn) (rest : List Turn) (s : State) : (beginTurn t rest s).slots = s.slots := rfl
@[simp] theorem beginTurn_head (t : Turn) (rest : List Turn) (s : State) : (beginTurn t rest s).head = s.head := rfl
@[simp] theorem beginTurn_tail (t : Turn) (rest : List Turn) (s : State) : (beginTurn t rest s).tail = s.tail := rfl
@[simp] theorem beginTurn_online (t : Turn) (rest : List Turn) (s : State) : (beginTurn t rest s).online = s.online := rfl
@[simp] theorem beginTurn_pendingValid (t : Turn) (rest : List Turn) (s : State) : (beginTurn t rest s).pendingValid = s.pendingValid := rfl
@[simp] theorem beginTurn_pendingFrame (t : Turn) (rest : List Turn) (s : State) : (beginTurn t rest s).pendingFrame = s.pendingFrame := rfl
@[simp] theorem beginTurn_xport (t : Turn) (rest : List Turn) (s : State) : (beginTurn t rest s).xport = s.xport := rfl
@[simp] theorem beginTurn_xportWritten (t : Turn) (rest : List Turn) (s : State) : (beginTurn t rest s).xportWritten = s.xportWritten := rfl
@[simp] theorem beginTurn_lock (t : Turn) (rest : List Turn) (s : State) : (beginTurn t rest s).lock = s.lock := rfl
@[simp] theorem beginTurn_waiters (t : Turn) (rest : List Turn) (s : State) : (beginTurn t rest s).waiters = s.waiters := rfl
@[simp] theorem beginTurn_kCross (t : Turn) (rest : List Turn) (s : State) : (beginTurn t rest s).kCross = s.kCross := rfl
@[simp] theorem beginTurn_lockCross (t : Turn) (rest : List Turn) (s : State) : (beginTurn t rest s).lockCross = s.lockCross := rfl
@[simp] theorem beginTurn_now (t : Turn) (rest : List Turn) (s : State) : (beginTurn t rest s).now = clockRead s.now t.clock := rfl
@[simp] theorem beginTurn_inputs (t : Turn) (rest : List Turn) (s : State) : (beginTurn t rest s).inputs = rest := rfl
@[simp] theorem beginTurn_out (t : Turn) (rest : List Turn) (s : State) : (beginTurn t rest s).out = [] := rfl
@[simp] theorem beginTurn_draws (t : Turn) (rest : List Turn) (s : State) : (beginTurn t rest s).draws = s.draws := rfl

end Sys2Proof.Machine
end

