-- ==== Sys2Proof/Laws/Ops.lean ====
section
/-! SUPPORT. For each shared operation, what it can do. -/

namespace Sys2Proof.Machine

open Sys2Proof

/-! ## The slot space -/

theorem memRead_ok (s : State) (a n : Nat) (bs : List Byte) :
    memRead s a n = .ok bs ↔ a + n ≤ s.params.slotSpace ∧ s.slots.readBytes a n = some bs := by
  unfold memRead
  split_ifs with h
  · cases hr : s.slots.readBytes a n <;> simp [h]
  · simp [h]

theorem memWrite_ok (s s' : State) (a : Nat) (bs : List Byte) :
    memWrite s a bs = .ok s' ↔
      a + bs.length ≤ s.params.slotSpace ∧ s' = { s with slots := s.slots.writeBytes a bs } := by
  unfold memWrite
  split_ifs with h
  · simp [h, eq_comm]
  · simp [h]

theorem slotRead_ok (s : State) (k : Nat) (bs : List Byte) :
    slotRead s k = .ok bs ↔ slotAddr s.params k + s.params.frameBytes ≤ s.params.slotSpace ∧
      s.slots.readBytes (slotAddr s.params k) s.params.frameBytes = some bs :=
  memRead_ok s _ _ bs

theorem slotWrite_ok (s s' : State) (k : Nat) (bs : List Byte) :
    slotWrite s k bs = .ok s' ↔ slotAddr s.params k + bs.length ≤ s.params.slotSpace ∧
      s' = { s with slots := s.slots.writeBytes (slotAddr s.params k) bs } :=
  memWrite_ok s s' _ bs

/-- A slot that is read has `FRAME_BYTES` bytes. -/
theorem slotRead_length (s : State) (k : Nat) (bs : List Byte) (h : slotRead s k = .ok bs) :
    bs.length = s.params.frameBytes :=
  ((Memory.readBytes_eq_some _ _ _ _).1 ((slotRead_ok s k bs).1 h).2).1

theorem pendingAt_ok (s : State) (i : Nat) (f : Frame) :
    pendingAt s i = .ok f ↔ ∃ bs, slotRead s (pendingSlot s i) = .ok bs ∧ f = Frame.dec bs := by
  unfold pendingAt
  cases slotRead s (pendingSlot s i) <;> simp [eq_comm]

/-- Slot `k` of the ring lies inside the slot space. -/
theorem slot_inside (p : Params) (k : Nat) (h : k < p.cmdBufferSize) :
    slotAddr p k + p.frameBytes ≤ p.slotSpace := by
  unfold slotAddr Params.slotSpace
  calc k * p.frameBytes + p.frameBytes = (k + 1) * p.frameBytes := by ring
    _ ≤ p.cmdBufferSize * p.frameBytes := Nat.mul_le_mul_right _ h

/-- Two slots of the ring share no byte. -/
theorem slots_disjoint (p : Params) (k j : Nat) (h : k ≠ j) :
    slotAddr p k + p.frameBytes ≤ slotAddr p j ∨ slotAddr p j + p.frameBytes ≤ slotAddr p k := by
  unfold slotAddr
  rcases Nat.lt_or_gt_of_ne h with h | h
  · left
    calc k * p.frameBytes + p.frameBytes = (k + 1) * p.frameBytes := by ring
      _ ≤ j * p.frameBytes := Nat.mul_le_mul_right _ h
  · right
    calc j * p.frameBytes + p.frameBytes = (j + 1) * p.frameBytes := by ring
      _ ≤ k * p.frameBytes := Nat.mul_le_mul_right _ h

/-- A slot write that succeeds is read back, and every other slot reads as before. -/
theorem slotRead_slotWrite (s s' : State) (k j : Nat) (bs : List Byte)
    (hl : bs.length = s.params.frameBytes) (h : slotWrite s k bs = .ok s') :
    slotRead s' j = if j = k then .ok bs else slotRead s j := by
  obtain ⟨hin, rfl⟩ := (slotWrite_ok s s' k bs).1 h
  split_ifs with hj
  · subst hj
    refine (slotRead_ok _ _ _).2 ⟨hl ▸ hin, ?_⟩
    show Memory.readBytes _ (slotAddr s.params j) s.params.frameBytes = some bs
    rw [← hl]
    exact Memory.readBytes_writeBytes_same _ _ _
  · unfold slotRead memRead
    simp only
    rw [Memory.readBytes_writeBytes_other _ _ _ _ _ (hl ▸ slots_disjoint s.params j k hj)]

/-! ## The status view -/

/-- The status view as a number: its fields side by side (rule R73). -/
theorem statusView_toNat (s : State) :
    (statusView s).toNat = (zextOr 32 Config.wideCount s.count).toNat * 2 ^ 8 + s.full.toNat * 2 ^ 3
      + s.empty.toNat * 2 ^ 2 + s.pendingValid.toNat * 2 + s.online.toNat := by
  have h24 : (0 : BitVec 24).toNat = 0 := rfl
  have h4 : (0 : BitVec 4).toNat = 0 := rfl
  unfold statusView
  simp only [append_toNat, BitVec.toNat_ofBool, h24, h4]
  omega

/-! ## The ring buffer -/

theorem pendingSlot_lt (s : State) (i : Nat) (h : 1 ≤ s.params.cmdBufferSize) :
    pendingSlot s i < s.params.cmdBufferSize := by
  have hm : ptrAdd s.params s.tail i < 2 * s.params.cmdBufferSize :=
    Nat.mod_lt _ (by unfold Params.ptrMod; omega)
  unfold pendingSlot ptrSlot
  split_ifs <;> omega

/-- Different pending positions below `N` are in different slots. -/
theorem pendingSlot_injective (s : State) (i j : Nat) (ht : s.tail < s.params.ptrMod)
    (hi : i < s.params.cmdBufferSize) (hj : j < s.params.cmdBufferSize)
    (h : pendingSlot s i = pendingSlot s j) : i = j := by
  have key : ∀ k, k < s.params.cmdBufferSize → ptrAdd s.params s.tail k =
      if s.tail + k < 2 * s.params.cmdBufferSize then s.tail + k
      else s.tail + k - 2 * s.params.cmdBufferSize := by
    intro k hk
    unfold ptrAdd Params.ptrMod at *
    split_ifs with h1
    · exact Nat.mod_eq_of_lt h1
    · rw [Nat.mod_eq_sub_mod (by omega), Nat.mod_eq_of_lt (by omega)]
  unfold pendingSlot ptrSlot at h
  rw [key i hi, key j hj] at h
  unfold Params.ptrMod at ht
  split_ifs at h <;> omega

/-- Everything PUSH of a wire string can do (rule R80). -/
theorem pushWire_ok (bs : List Byte) (s s' : State) (b : Bool) (h : pushWire bs s = .ok (b, s')) :
    b = !s.full ∧
    slotAddr s.params (ptrSlot s.params s.head) + bs.length ≤ s.params.slotSpace ∧
    s' = { s with
      slots := s.slots.writeBytes (slotAddr s.params (ptrSlot s.params s.head)) bs
      head := ptrInc s.params s.head
      tail := if s.full then ptrInc s.params s.tail else s.tail } := by
  unfold pushWire at h
  split at h
  · cases h
  · rename_i s1 h1
    obtain ⟨hin, hs1⟩ := (slotWrite_ok _ _ _ _).1 h1
    rw [Except.ok.injEq, Prod.mk.injEq] at h
    refine ⟨h.1.symm, hin, ?_⟩
    rw [← h.2, hs1]

/-- PUSH of a wire string of the right length always succeeds where `head` is a pointer (rule R80: "PUSH
never fails"). -/
theorem pushWire_succeeds (bs : List Byte) (s : State)
    (hh : s.head < s.params.ptrMod) (hl : bs.length = s.params.frameBytes) :
    ∃ s', pushWire bs s = .ok (!s.full, s') := by
  have hk : ptrSlot s.params s.head < s.params.cmdBufferSize := by
    unfold ptrSlot
    unfold Params.ptrMod at hh
    split_ifs <;> omega
  have hin := slot_inside s.params _ hk
  rw [← hl] at hin
  have hw := (slotWrite_ok s _ _ bs).2 ⟨hin, rfl⟩
  unfold pushWire
  rw [hw]
  exact ⟨_, rfl⟩

/-- A scan that finds nothing has read every position and none satisfies the predicate (rule R81). -/
theorem scanFrom_none (s : State) (P : Frame → Bool) (n i : Nat) (h : scanFrom s P i n = .ok none) :
    ∀ j, i ≤ j → j < i + n → ∃ f, pendingAt s j = .ok f ∧ P f = false := by
  induction n generalizing i with
  | zero => intro j h1 h2; omega
  | succ n ih =>
    intro j h1 h2
    unfold scanFrom at h
    split at h
    · cases h
    · rename_i f hf
      split_ifs at h with hp
      · cases h
      rcases Nat.eq_or_lt_of_le h1 with rfl | h1
      · exact ⟨f, hf, by simpa using hp⟩
      · exact ih (i + 1) h j h1 (by omega)

/-- A scan that finds a position found the least one (rule R81). -/
theorem scanFrom_some (s : State) (P : Frame → Bool) (n i k : Nat) (h : scanFrom s P i n = .ok (some k)) :
    i ≤ k ∧ k < i + n ∧ (∃ f, pendingAt s k = .ok f ∧ P f = true) ∧
    ∀ j, i ≤ j → j < k → ∃ f, pendingAt s j = .ok f ∧ P f = false := by
  induction n generalizing i with
  | zero => cases h
  | succ n ih =>
    unfold scanFrom at h
    split at h
    · cases h
    · rename_i f hf
      split_ifs at h with hp
      · cases h
        exact ⟨Nat.le_refl _, by omega, ⟨f, hf, hp⟩, fun j h1 h2 => absurd h2 (by omega)⟩
      · obtain ⟨h1, h2, h3, h4⟩ := ih (i + 1) h
        refine ⟨by omega, by omega, h3, fun j hj1 hj2 => ?_⟩
        rcases Nat.eq_or_lt_of_le hj1 with rfl | hj1
        · exact ⟨f, hf, by simpa using hp⟩
        · exact h4 j hj1 hj2

/-- PEEK_MATCHING changes nothing (rule R81). -/
theorem peekMatching_ok (P : Frame → Bool) (s s' : State) (r : Option Nat)
    (h : peekMatching P s = .ok (r, s')) : s' = s ∧ scanFrom s P 0 s.count = .ok r := by
  unfold peekMatching at h
  split at h
  · cases h
  · rename_i r' hr
    cases h
    exact ⟨rfl, hr⟩

/-- The shift of POP_AT writes only slots (rule R82). -/
theorem shiftOlder_frame (i : Nat) (s s' : State) (h : shiftOlder s i = .ok s') :
    s' = { s with slots := s'.slots } := by
  induction i generalizing s with
  | zero => cases h; rfl
  | succ j ih =>
    unfold shiftOlder at h
    split at h
    · cases h
    · split at h
      · cases h
      · rename_i s1 h1
        obtain ⟨-, rfl⟩ := (slotWrite_ok _ _ _ _).1 h1
        have := ih _ h
        rw [this]

/-- Everything POP_AT can do (rule R82). -/
theorem popAtPos_ok (i : Nat) (s s' : State) (r : Option Frame) (h : popAtPos i s = .ok (r, s')) :
    (s.count ≤ i ∧ r = none ∧ s' = s) ∨
    (i < s.count ∧ ∃ f s1, pendingAt s i = .ok f ∧ shiftOlder s i = .ok s1 ∧ r = some f ∧
      s' = { s with slots := s1.slots, tail := ptrInc s.params s.tail }) := by
  unfold popAtPos at h
  split_ifs at h with hi
  · split at h
    · cases h
    · rename_i f hf
      split at h
      · cases h
      · rename_i s1 h1
        cases h
        refine .inr ⟨hi, f, s1, hf, h1, rfl, ?_⟩
        rw [shiftOlder_frame i s s1 h1]
  · cases h
    exact .inl ⟨by omega, rfl, rfl⟩

/-! ## The canonical form of the slot space -/

theorem reset_slots_wf (p : Params) : Memory.wf (State.resetWith p).slots := List.Pairwise.nil

theorem slotWrite_wf (s s' : State) (k : Nat) (bs : List Byte) (h : slotWrite s k bs = .ok s')
    (hw : Memory.wf s.slots) : Memory.wf s'.slots := by
  obtain ⟨-, rfl⟩ := (slotWrite_ok _ _ _ _).1 h
  exact Memory.writeBytes_wf _ _ _ hw

theorem pushWire_wf (bs : List Byte) (s s' : State) (b : Bool) (h : pushWire bs s = .ok (b, s'))
    (hw : Memory.wf s.slots) : Memory.wf s'.slots := by
  obtain ⟨-, -, rfl⟩ := pushWire_ok bs s s' b h
  exact Memory.writeBytes_wf _ _ _ hw

theorem push_wf (f : Frame) (s s' : State) (b : Bool) (h : push f s = .ok (b, s'))
    (hw : Memory.wf s.slots) : Memory.wf s'.slots := pushWire_wf f.enc s s' b h hw

theorem shiftOlder_wf (i : Nat) (s s' : State) (h : shiftOlder s i = .ok s')
    (hw : Memory.wf s.slots) : Memory.wf s'.slots := by
  induction i generalizing s with
  | zero => cases h; exact hw
  | succ j ih =>
    unfold shiftOlder at h
    split at h
    · cases h
    · split at h
      · cases h
      · rename_i s1 h1
        exact ih s1 h (slotWrite_wf _ _ _ _ h1 hw)

theorem popAtPos_wf (i : Nat) (s s' : State) (r : Option Frame) (h : popAtPos i s = .ok (r, s'))
    (hw : Memory.wf s.slots) : Memory.wf s'.slots := by
  obtain ⟨-, -, hs⟩ | ⟨-, f, s1, -, h1, -, hs⟩ := popAtPos_ok i s s' r h
  · rw [hs]
    exact hw
  · rw [hs]
    exact shiftOlder_wf i s s1 h1 hw

/-! ## The lock and the ports -/

theorem withLock_free {α : Type} (a : Agent) (s : State) (body : State → Except Fault (α × State))
    (after : α → State → Host.Outcome State Fault Refusal) (h : s.lock = .free) :
    withLock a s body after =
      match body (lockGrant a (lockRequest a s)) with
      | .error e => .fault e
      | .ok (r, s') => after r (lockRelease s') := by
  unfold withLock
  split
  · rename_i hl
    rw [h] at hl
    cases hl
  · rfl

theorem withLock_held {α : Type} (a b : Agent) (s : State) (body : State → Except Fault (α × State))
    (after : α → State → Host.Outcome State Fault Refusal) (h : s.lock = .held b) :
    withLock a s body after = .next s := by
  unfold withLock
  split
  · rfl
  · rename_i hl
    rw [h] at hl
    cases hl

/-- Everything `with lock` can do when it answers a next state (rule R47). -/
theorem withLock_next {α : Type} (a : Agent) (s t : State) (body : State → Except Fault (α × State))
    (after : α → State → Host.Outcome State Fault Refusal) (h : withLock a s body after = .next t) :
    (s.lock ≠ .free ∧ t = s) ∨
    (s.lock = .free ∧ ∃ r s1, body (lockGrant a (lockRequest a s)) = .ok (r, s1) ∧
      after r (lockRelease s1) = .next t) := by
  unfold withLock at h
  split at h
  · rename_i hl
    cases h
    exact .inl ⟨by simp [hl], rfl⟩
  · rename_i hl
    split at h
    · cases h
    · rename_i r s1 hb
      exact .inr ⟨hl, r, s1, hb, h⟩

/-- Everything a consumer port can do when it answers a next state (rules R23, R75). -/
theorem onPort_next (c : Nat) (s t : State) (body : Waiter → Host.Outcome State Fault Refusal)
    (h : onPort c s body = .next t) :
    ∃ w, s.waiters[c]? = some w ∧
      ((w.phase ≠ .idle ∧ t = s) ∨ (w.phase = .idle ∧ body w = .next t)) := by
  unfold onPort at h
  split at h
  · cases h
  · rename_i w hw
    split_ifs at h with hp
    · exact ⟨w, hw, .inr ⟨hp, h⟩⟩
    · cases h
      exact ⟨w, hw, .inl ⟨hp, rfl⟩⟩

theorem onPort_ready (c : Nat) (s : State) (w : Waiter) (body : Waiter → Host.Outcome State Fault Refusal)
    (hw : s.waiters[c]? = some w) (hp : w.phase = .idle) : onPort c s body = body w := by
  unfold onPort
  rw [hw]
  exact if_pos hp

theorem onPort_busy (c : Nat) (s : State) (w : Waiter) (body : Waiter → Host.Outcome State Fault Refusal)
    (hw : s.waiters[c]? = some w) (hp : w.phase ≠ .idle) : onPort c s body = .next s := by
  unfold onPort
  rw [hw]
  exact if_neg hp

theorem onProducer_next (s t : State) (body : Host.Outcome State Fault Refusal)
    (h : onProducer s body = .next t) :
    (s.online = false ∧ t = s) ∨ (s.online = true ∧ body = .next t) := by
  unfold onProducer pReady at h
  split_ifs at h with ho
  · exact .inr ⟨ho, h⟩
  · cases h
    exact .inl ⟨by simpa using ho, rfl⟩

theorem onController_next (s t : State) (body : Host.Outcome State Fault Refusal)
    (h : onController s body = .next t) :
    (kReady s = false ∧ t = s) ∨ (kReady s = true ∧ body = .next t) := by
  unfold onController at h
  split_ifs at h with ho
  · exact .inr ⟨ho, h⟩
  · cases h
    exact .inl ⟨by simpa using ho, rfl⟩

theorem withFrame_next (f : Frame) (s t : State) (body : Host.Outcome State Fault Refusal)
    (h : withFrame f s body = .next t) : f.WF s.params ∧ body = .next t := by
  unfold withFrame at h
  split_ifs at h with hf
  exact ⟨hf, h⟩

theorem kReady_of_idle (s : State) (h : s.kCross = .idle) : kReady s = true := by
  simp [kReady, kReq, kAck, h]

/-! ## The connection state -/

/-- Everything FLUSH does (rule R124). -/
theorem flush_eq (s : State) :
    flush s = { s with
      pendingValid := false
      out := if s.pendingValid then s.out ++ [.tx (frameBus (Frame.dec s.pendingFrame)) s.xport]
        else s.out } := by
  unfold flush emitTx emit
  cases h : s.pendingValid
  · simp only [Bool.false_eq_true, if_false]
    rw [← h]
  · simp

/-- Everything the return from the offline state does (rules R125, R165). -/
theorem goOnline_eq (h : U64) (s : State) :
    goOnline h s = { s with
      xport := h
      xportWritten := true
      online := true
      pendingValid := false
      out := if s.pendingValid then s.out ++ [.tx (frameBus (Frame.dec s.pendingFrame)) h] else s.out } :=
  flush_eq _

/-- `RX_HANDLE` after the return from the offline state is the handle given (rules R66, R125). -/
theorem rxHandle_goOnline (h : U64) (s : State) : rxHandle (goOnline h s) = some h := by
  rw [goOnline_eq]
  rfl

/-- Once `xport` has been written `RX_HANDLE` equals it (rule R66). -/
theorem rxHandle_written (s : State) (h : s.xportWritten = true) : rxHandle s = some s.xport := by
  unfold rxHandle
  rw [if_pos h]

/-- Everything the reconnect handshake does at its phase (3) (rules R125, R132, R135). -/
theorem kPerform_kLatch (h : U64) (s : State) :
    kPerform (kLatch h s) =
      ((reconnectBody h (kLatch h s)).1,
        { (reconnectBody h (kLatch h s)).2 with
          kCross := .acknowledged (reconnectBody h (kLatch h s)).1 }) := rfl

/-! ## The step -/

/-- Everything a step can do when it answers a next state. -/
theorem step_next (s s' : State) (h : step s = .next s') :
    (s.inputs = [] ∧ s' = idleStep s) ∨
    ∃ t rest, s.inputs = t :: rest ∧ stepAction t.act (beginTurn t rest s) = .next s' := by
  unfold step at h
  split at h
  · rename_i hi
    cases h
    exact .inl ⟨hi, rfl⟩
  · rename_i t rest hi
    exact .inr ⟨t, rest, hi, h⟩

/-- Everything presented words can do when they answer a next state. -/
theorem stepPresent_next (w : PortWords) (s s' : State) (h : stepPresent w s = .next s') :
    (∃ i, decode s.params w = .ok i ∧ exec i s = .next s') ∨
    (∃ e, decode s.params w = .error e ∧ answerIllegal w e s = .next s') := by
  unfold stepPresent at h
  split at h
  · rename_i i hi
    exact .inl ⟨i, hi, h⟩
  · rename_i e he
    exact .inr ⟨e, he, h⟩

/-- Words that stand for no operation change nothing but what the ports answer (rule R155). -/
theorem answerIllegal_next (w : PortWords) (e : DecodeError) (s s' : State)
    (h : answerIllegal w e s = .next s') : s' = { s with out := s'.out } := by
  unfold answerIllegal at h
  split at h
  · cases h
  · obtain ⟨x, -, ⟨-, rfl⟩ | ⟨-, h⟩⟩ := onPort_next _ _ _ _ h
    · rfl
    · cases h; rfl
  · obtain ⟨-, rfl⟩ | ⟨-, h⟩ := onController_next _ _ _ h
    · rfl
    · cases h; rfl
  · cases h; rfl

end Sys2Proof.Machine
end

