-- ==== Sys2Proof/Laws/PerInstr.lean ====
section
/-! SUPPORT. One lemma per operation. -/

namespace Sys2Proof.Laws.TableBits

open Sys2Proof

/-- The bits that the row of `spec/opcode_table.json` fixes, in the words of a port: the low 8 bits of a
consumer request, the low 2 bits of a controller request, the event code. -/
def fixedBits : PortWords → Nat
  | .consumer _ req _ => req.toNat % 256
  | .producer ev _ => ev.toNat
  | .controller req => req.toNat % 4

/-- The value the row of an operation gives those bits ("match" of the table). -/
def rowMatch : Instr → Nat
  | .nop _ => 0
  | .peek _ _ => 1
  | .popAt _ _ => 2
  | .clear _ => 3
  | .waitFor _ _ _ => 4
  | .waitForever _ _ => 5
  | .send _ _ => 6
  | .status _ => 7
  | .rxFrame _ => 1
  | .rxError => 2
  | .knop => 0
  | .reconnect _ => 1

/-- The encoding of an operation carries its row's fixed bits. -/
def Statement (i : Instr) : Prop := fixedBits (encode i) = rowMatch i

theorem reqWord_fixed (op : BitVec 4) (a : U64) (t : U32) : (reqWord op a t).toNat % 256 = op.toNat := by
  have h : op.toNat < 16 := op.isLt
  rw [reqWord_toNat]
  omega

theorem kReqWord_fixed (op : BitVec 2) (h : U64) : (kReqWord op h).toNat % 4 = op.toNat := by
  have h : op.toNat < 4 := op.isLt
  rw [kReqWord_toNat]
  omega

theorem nop (c : Nat) : Statement (.nop c) := reqWord_fixed _ _ _
theorem peek (c : Nat) (id : U64) : Statement (.peek c id) := reqWord_fixed _ _ _
theorem popAt (c : Nat) (a : U64) : Statement (.popAt c a) := reqWord_fixed _ _ _
theorem clear (c : Nat) : Statement (.clear c) := reqWord_fixed _ _ _
theorem waitFor (c : Nat) (id : U64) (t : U32) : Statement (.waitFor c id t) := reqWord_fixed _ _ _
theorem waitForever (c : Nat) (id : U64) : Statement (.waitForever c id) := reqWord_fixed _ _ _
theorem send (c : Nat) (f : Frame) : Statement (.send c f) := reqWord_fixed _ _ _
theorem status (c : Nat) : Statement (.status c) := reqWord_fixed _ _ _
theorem rxFrame (f : Frame) : Statement (.rxFrame f) := rfl
theorem rxError : Statement .rxError := rfl
theorem knop : Statement .knop := kReqWord_fixed _ _
theorem reconnect (h : U64) : Statement (.reconnect h) := kReqWord_fixed _ _

end Sys2Proof.Laws.TableBits
end

