-- ==== Sys2Proof/Machine/Text.lean ====
section
/-! DEFINITION. The textual syntax of port operations (`30_encoding.md` rule R77), in which the spec writes
its traces. It has no part in a step. -/

namespace Sys2Proof.Machine

open Sys2Proof

/-- One hexadecimal digit, upper case. -/
def hexDigit (n : Nat) : Char := if n < 10 then Char.ofNat (48 + n) else Char.ofNat (55 + n)

/-- Two hexadecimal digits of a payload byte. -/
def byteText (b : Byte) : List Char := [hexDigit (b.toNat / 16), hexDigit (b.toNat % 16)]

/-- The hexadecimal digits of a number below `16 ^ fuel`, most significant first, no leading zero. -/
def hexDigits : Nat → Nat → List Char
  | 0, _ => []
  | fuel + 1, n => if n < 16 then [hexDigit n] else hexDigits fuel (n / 16) ++ [hexDigit (n % 16)]

/-- A number of at most 64 bits, as `0x` and hexadecimal digits. -/
def numText (n : Nat) : List Char := '0' :: 'x' :: hexDigits 16 n

/-- A consumer number, in decimal. -/
def portText : Nat → Nat → List Char
  | 0, _ => []
  | fuel + 1, n =>
    if n < 10 then [Char.ofNat (48 + n)] else portText fuel (n / 10) ++ [Char.ofNat (48 + n % 10)]

/-- The payload bytes in wire order, separated by spaces. -/
def payloadText : List Byte → List Char
  | [] => []
  | [b] => byteText b
  | b :: bs => byteText b ++ ' ' :: payloadText bs

/-- A frame literal: identifier, arguments and payload between braces. -/
def frameText (f : Frame) : List Char :=
  Char.ofNat 123 :: (numText f.commandId.toNat ++ ", ".toList ++ numText f.arg0.toNat ++ ", ".toList
    ++ numText f.arg1.toNat ++ ", ".toList ++ numText f.arg2.toNat ++ ", ".toList
    ++ payloadText f.payload ++ [Char.ofNat 125])

/-- The port part of a line: `c<k>: `. -/
def consumerText (c : Nat) : List Char := 'c' :: (portText (c + 1) c ++ ": ".toList)

/-- The line of one port operation (rule R77). -/
def instrText : Instr → List Char
  | .nop c => consumerText c ++ "nop".toList
  | .peek c id => consumerText c ++ "peek ".toList ++ numText id.toNat
  | .popAt c a => consumerText c ++ "pop_at ".toList ++ numText a.toNat
  | .clear c => consumerText c ++ "clear".toList
  | .waitFor c id t =>
    consumerText c ++ "wait_for ".toList ++ numText id.toNat ++ ", ".toList ++ numText t.toNat
  | .waitForever c id => consumerText c ++ "wait_forever ".toList ++ numText id.toNat
  | .send c f => consumerText c ++ "send ".toList ++ frameText f
  | .status c => consumerText c ++ "status".toList
  | .rxFrame f => "p: rx ".toList ++ frameText f
  | .rxError => "p: rx_error".toList
  | .knop => "k: knop".toList
  | .reconnect h => "k: reconnect ".toList ++ numText h.toNat

end Sys2Proof.Machine
end

