-- ==== Sys2Proof/Tests/Slice0.lean ====
section
/-! SUPPORT. Tests. Expected values are those of `95_test_vectors.md` (the vector is named) or worked out by
hand from the rule named; the witness theorems show that the hypotheses of the statements can be met. -/

namespace Sys2Proof.Tests

open Sys2Proof Sys2Proof.Machine

set_option maxRecDepth 8000

/-! ## Small states -/

/-- Two slots, no payload, two consumers. -/
def small : Params := { cmdBufferSize := 2, payloadMax := 0, numConsumers := 2, pollMaxMs := 50, handleBits := 8 }

/-- A frame with an identifier and a first argument. -/
def fr (id a : U64) : Frame := { commandId := id, arg0 := a, arg1 := 0, arg2 := 0, payload := [] }

/-- The state after some actions; one that gives no next state is left out. -/
def after (s : State) : List Action → State
  | [] => s
  | a :: as =>
    match stepAction a { s with out := [] } with
    | .next s' => after s' as
    | .fault _ => after s as
    | .refused _ => after s as

/-- An operation presented at its port. -/
def op (i : Instr) : Action := .present (encode i)

def offline0 : State := State.resetWith small
def online0 : State := after offline0 [op (.reconnect 0x2A)]
/-- Offline with a deferred frame. -/
def deferred1 : State := after offline0 [op (.send 0 (fr 0x100 1))]
/-- Online, one pending frame with identifier 1. -/
def ring1 : State := after online0 [op (.rxFrame (fr 1 0xA))]
/-- Online and full: identifiers 1, 2. -/
def ring2 : State := after ring1 [op (.rxFrame (fr 2 0xB))]
/-- `ring2` with consumer 0 about to scan for identifier 2. -/
def scan2 : State := after ring2 [op (.waitFor 0 2 0)]
/-- `ring2` with consumer 0 about to scan for identifier 9. -/
def scan9 : State := after ring2 [op (.waitFor 0 9 0)]
/-- `scan9` after the scan that finds nothing. -/
def check9 : State := after scan9 [.micro 0]
/-- `check9` after W_CHECK at clock value 0. -/
def sleep9 : State := after check9 [.micro 0]
/-- `ring1` with both consumers about to scan for identifier 1. -/
def rivals : State := after ring1 [op (.waitFor 0 1 100), op (.waitFor 1 1 100)]
/-- `ring1` with consumer 0 in a wait for identifier 9 that has no timeout. -/
def forever9 : State := after ring1 [op (.waitForever 0 9)]

/-- A state with one turn to come. -/
def coming (s : State) (clock : U64) (a : Action) : State := { s with inputs := [⟨clock, a⟩] }

/-- The next state of an outcome. -/
def nextOf : Host.Outcome State Fault Refusal → Option State
  | .next s => some s
  | .fault _ => none
  | .refused _ => none

/-- What the ports show after an operation. -/
def outOf (i : Instr) (s : State) : Option (List Event) := (nextOf (exec i { s with out := [] })).map (·.out)

/-! ## Well-formedness refuses what it should -/

theorem test_wf_refuses_absent_port : (Instr.nop 2).wf small = false := by decide
theorem test_wf_refuses_short_payload : (Instr.send 0 (fr 1 0)).wf Params.vectors = false := by decide
theorem test_wf_refuses_short_received_frame : (Instr.rxFrame (fr 1 0)).wf Params.vectors = false := by decide
theorem test_wf_refuses_wide_handle : (Instr.reconnect 0x100).wf small = false := by decide
theorem test_wf_accepts : (Instr.send 1 (fr 1 0)).wf small = true := by decide

/-! ## Decoding, by words written out from R64, R67, R69, R70 -/

/-- B0.1 -/
theorem test_decode_nop : decodeTableWord 104 0x00000000000000000000000000 = some (.nop 0) := by decide
/-- B0.2 -/
theorem test_decode_peek : decodeTableWord 104 0x00000000000000000000000201 = some (.peek 0 2) := by decide
/-- B0.4 -/
theorem test_decode_popAt : decodeTableWord 104 0x00000000000000000000000102 = some (.popAt 0 1) := by decide
/-- B0.28 -/
theorem test_decode_clear : decodeTableWord 104 0x00000009000000000000000503 = some (.clear 0) := by decide
/-- B0.7 -/
theorem test_decode_waitFor : decodeTableWord 104 0x00000064000000000000000704 = some (.waitFor 0 7 100) := by
  decide
/-- B0.9 -/
theorem test_decode_waitFor_largest : decodeTableWord 104 0xFFFFFFFFFFFFFFFFFFFFFFFF04 =
    some (.waitFor 0 0xFFFFFFFFFFFFFFFF 0xFFFFFFFF) := by decide
/-- B0.10 -/
theorem test_decode_waitForever : decodeTableWord 104 0x00000000000000000000000105 = some (.waitForever 0 1) := by
  decide
/-- B0.11, the frame of zeros. -/
theorem test_decode_send : decodeTableWord 104 0x00000000000000000000000006 =
    some (.send 0 (Frame.mk 0 0 0 0 [0, 0, 0, 0])) := by decide
/-- B0.12 -/
theorem test_decode_status : decodeTableWord 104 0x00000000000000000000000007 = some (.status 0) := by decide
/-- B0.20 with the frame F1 on its bus (section 0 of the vectors). -/
theorem test_decode_rxFrame : decode Params.vectors
    (.producer 1 0xEFBEADDE0000000000000030000000000000002000000000000000100000000000000001) =
    .ok (.rxFrame (Frame.mk 1 0x10 0x20 0x30 [0xDE, 0xAD, 0xBE, 0xEF])) := by decide
/-- B0.21 -/
theorem test_decode_rxError : decodeTableWord 8 2 = some .rxError := by decide
/-- B0.15 -/
theorem test_decode_knop : decodeTableWord 72 0x00000000000000000 = some .knop := by decide
/-- B0.16 -/
theorem test_decode_reconnect : decodeTableWord 72 0x000000000000000A9 = some (.reconnect 0x2A) := by decide
/-- B0.13, B0.14 -/
theorem test_decode_reserved :
    decode small (.consumer 0 8 0) = .error .reservedOpcode ∧
    decode small (.consumer 0 0x13 0) = .error .reservedBits := by decide
/-- B0.18, B0.19 -/
theorem test_decode_controller_illegal :
    decode small (.controller 0x401) = .error .handleBits ∧
    decode small (.controller 2) = .error .reservedControllerOp := by decide
/-- B0.22, B0.23 -/
theorem test_decode_producer_illegal :
    decode small (.producer 3 0) = .error .reservedEvent ∧ decode small (.producer 0 5) = .error .noEvent := by
  decide
/-- The wire bytes of F2 (section 0 of the vectors): a value with eight distinct bytes, all ones. -/
theorem test_frame_enc :
    (Frame.mk 0x0102030405060708 0 0 0xFFFFFFFFFFFFFFFF [1, 2, 3, 4]).enc =
    [8, 7, 6, 5, 4, 3, 2, 1] ++ List.replicate 16 0 ++ List.replicate 8 0xFF ++ [1, 2, 3, 4] := by decide
/-- B0.24, B0.27 -/
theorem test_response_words :
    rspWord .ok 1 = 0x000000000000000100 ∧ rspWord .illegalIndex 0 = 0x000000000000000003 := by decide
/-- Rule R77, its own example lines with numbers in hexadecimal. -/
theorem test_text : instrText (.waitFor 0 7 100) = "c0: wait_for 0x7, 0x64".toList := by decide

/-! ## One step of each operation -/

/-- B0.30: STATUS after reset. -/
theorem test_status_after_reset : outOf (.status 0) State.reset = some [.done 0 0x400 none] := by decide
/-- Rule R73 on the full ring, online: V = 0x209. -/
theorem test_status_full : outOf (.status 1) ring2 = some [.done 1 0x20900 none] := by decide
/-- B1.17 -/
theorem test_nop : outOf (.nop 0) ring2 = some [.done 0 0 none] := by decide
/-- B0.15 -/
theorem test_knop : outOf .knop ring2 = some [.kDone 0] := by decide
/-- Rule R85: identifier 2 stands at position 1. -/
theorem test_peek : outOf (.peek 0 2) ring2 = some [.done 0 0x100 none] := by decide
/-- B1.7 -/
theorem test_peek_no_match : outOf (.peek 0 9) ring2 = some [.done 0 1 none] := by decide
/-- Rule R86 at position 1 of `ring2`: the frame `fr 2 0xB` on the bus, then only `fr 1 0xA` pending. -/
theorem test_popAt : (nextOf (exec (.popAt 0 1) { ring2 with out := [] })).map
    (fun s => (s.out, s.tail, (pendingSeq s).toOption)) =
    some ([.done 0 0 (some 0xB0000000000000002)], 1, some [fr 1 0xA]) := by decide
/-- B1.14: a position whose low 32 bits are 0. -/
theorem test_popAt_compares_64_bits : outOf (.popAt 0 0x100000000) ring2 = some [.done 0 3 none] := by decide
/-- B1.9 in small. -/
theorem test_clear : (nextOf (exec (.clear 0) ring2)).map (fun s => (s.head, s.tail, s.slots.length)) =
    some (2, 2, 64) := by decide
/-- The example of rule R100 in small: the clock value is `start`. -/
theorem test_waitFor : (nextOf (step (coming ring1 1000 (op (.waitFor 0 7 100))))).map (fun s => s.waiters[0]?) =
    some (some { phase := .scan, wantId := 7, timeout := 100, inf := false, start := 1000, slept := 0 }) := by decide
/-- Rule R105. -/
theorem test_waitForever : (nextOf (exec (.waitForever 1 7) ring1)).map
    (fun s => (s.waiters[1]?).map (fun w => (w.phase, w.wantId, w.inf))) = some (some (.scan, 7, true)) := by decide
/-- B3.5 -/
theorem test_send_online : outOf (.send 0 (fr 0x102 3)) online0 =
    some [.tx 0x30000000000000102 0x2A, .done 0 0 none] := by decide
/-- B3.1, B3.2: the second deferred frame replaces the first. -/
theorem test_send_offline : (nextOf (exec (.send 1 (fr 0x101 2)) { deferred1 with out := [] })).map
    (fun s => (s.out, s.pendingValid, s.pendingFrame)) =
    some ([.done 1 2 none], true, (fr 0x101 2).enc) := by decide
/-- B1.4 in small: the overflow drops identifier 1 and moves `tail`. -/
theorem test_rxFrame_overflow : (nextOf (exec (.rxFrame (fr 3 0)) { ring2 with out := [] })).map
    (fun s => (s.out, s.head, s.tail, (pendingSeq s).toOption)) =
    some ([.ovf], 3, 1, some [fr 2 0xB, fr 3 0]) := by decide
/-- B1.15 in small: the pointer wraps at `2N`. -/
theorem test_rxFrame_wraps : (nextOf (exec (.rxFrame (fr 3 0)) (after ring2 [op (.rxFrame (fr 4 0))]))).map
    (fun s => (s.head, s.tail)) = some (0, 2) := by decide
/-- B3.6, B3.7 -/
theorem test_rxError : (nextOf (exec .rxError ring1)).map (fun s => (s.online, s.count, s.xport)) =
    some (false, 1, 0x2A) := by decide
/-- P3 step 10: `RX_HANDLE` still shows the handle after the disconnect. -/
theorem test_rxHandle_kept_offline : (nextOf (exec .rxError online0)).map (fun s => (s.online, rxHandle s)) =
    some (false, some 0x2A) := by decide
/-- B0.23: `P_EV = 0` with a frame on the bus, online: nothing happens, also not as RX_ERROR. -/
theorem test_no_event : (nextOf (step (coming ring1 0 (.present (.producer 0 5))))).map
    (fun s => (s.out, s.online, s.count)) = some ([], true, 1) := by decide
/-- B3.3 in small: the flush, once, with the new handle. -/
theorem test_reconnect_flushes : (nextOf (exec (.reconnect 0x2A) { deferred1 with out := [] })).map
    (fun s => (s.out, s.online, s.xport, s.pendingValid)) =
    some ([.tx 0x10000000000000100 0x2A, .kDone 0], true, 0x2A, false) := by decide
/-- B3.4 -/
theorem test_reconnect_refused : outOf (.reconnect 0x2B) online0 = some [.kDone 5] := by decide
/-- B2.2 in small: W_SCAN takes the match at position 1 and leaves the older frame. -/
theorem test_scan : (nextOf (microStep 0 { scan2 with out := [] })).map
    (fun s => (s.out, phaseOf s 0, (pendingSeq s).toOption)) =
    some ([.done 0 0 (some 0xB0000000000000002)], some .idle, some [fr 1 0xA]) := by decide
/-- B2.3: at elapsed = timeout the wait sleeps. -/
theorem test_check_strict : (nextOf (step (coming check9 0 (.micro 0)))).map (fun s => (s.out, phaseOf s 0)) =
    some ([], some .sleep) := by decide
/-- B2.4: one millisecond later it gives up. -/
theorem test_check_expired : (nextOf (step (coming check9 1 (.micro 0)))).map (fun s => (s.out, phaseOf s 0)) =
    some ([.done 0 1 none], some .idle) := by decide
/-- Rule R103. -/
theorem test_wake : (nextOf (microStep 0 sleep9)).map (fun s => phaseOf s 0) = some (some .scan) := by decide
/-- B2.14 -/
theorem test_busy_port : (nextOf (exec (.status 0) { scan2 with out := [] })).map (fun s => (s.out, phaseOf s 0)) =
    some ([], some .scan) := by decide
/-- The instruction word placed by `withFetchWord` is the one the next step runs. -/
theorem test_fetch_reconnect : (nextOf (step (State.reset.withFetchWord 72 0xA9))).map (fun s => (s.out, s.xport)) =
    some ([.kDone 0], 0x2A) := by decide
theorem test_fetch_rxFrame : (nextOf (step (State.reset.withFetchWord 8 1))).map (fun s => (s.head, s.slots.length)) =
    some (1, 36) := by decide

/-! ## Witnesses: the hypotheses of the statements can be met -/

theorem witness_inv_offline0 : Inv offline0 := by constructor <;> decide
theorem witness_inv_online0 : Inv online0 := by constructor <;> decide
theorem witness_inv_deferred1 : Inv deferred1 := by constructor <;> decide
theorem witness_inv_ring1 : Inv ring1 := by constructor <;> decide
theorem witness_inv_ring2 : Inv ring2 := by constructor <;> decide
theorem witness_inv_scan2 : Inv scan2 := by constructor <;> decide
theorem witness_inv_scan9 : Inv scan9 := by constructor <;> decide
theorem witness_inv_check9 : Inv check9 := by constructor <;> decide
theorem witness_inv_rivals : Inv rivals := by constructor <;> decide
theorem witness_inv_forever9 : Inv forever9 := by constructor <;> decide

theorem witness_DecodeOfEncodeIsTheOperation :
    (Instr.send 1 (fr 1 0)).wf small = true ∧ (Instr.reconnect 0xFF).wf small = true ∧
    (Instr.rxFrame (Frame.mk 1 2 3 4 [5, 6, 7, 8])).wf Params.vectors = true := by decide

theorem witness_DecodedOperationsAreWellFormed :
    decode small (.controller 0x3FD) = .ok (.reconnect 0xFF) ∧ decode small (.consumer 1 7 0) = .ok (.status 1) := by
  decide

/-- With and without a payload. -/
theorem witness_FrameWireFormat :
    (fr 1 0).WF small ∧ (Frame.mk 1 2 3 4 [5, 6, 7, 8]).WF Params.vectors ∧
    (List.replicate 32 (0 : Byte)).length = small.frameBytes := by decide

theorem witness_FrameBusLayout :
    (Frame.mk 1 2 3 4 [5, 6, 7, 8]).WF Params.vectors ∧ 2 ^ 256 - 1 < 2 ^ small.frameBits ∧ (fr 1 0).WF small := by decide

/-- CLEAR with and without operands; PEEK with and without a `T`; SEND on two buses alike on the wires there
are; KNOP with every bit of `H` set. -/
theorem witness_UnusedOperandsAreIgnored :
    (reqOp 0x00000009000000000000000503 = reqOp 3 ∧ reqRsv 0x00000009000000000000000503 = reqRsv 3 ∧
      reqOp 3 = 3) ∧
    (reqOp 0x00000009000000000000000201 = reqOp 0x201 ∧ reqA 0x00000009000000000000000201 = reqA 0x201 ∧
      reqRsv 0x00000009000000000000000201 = reqRsv 0x201 ∧ reqOp 0x201 = 1) ∧
    (reqOp 6 = 6 ∧ 2 ^ small.frameBits % 2 ^ small.frameBits = 0 % 2 ^ small.frameBits) ∧
    kReqOp 0x3FFFFFFFFFFFFFFFC = 0 := by decide

/-- `N = 2`: the last pointer, another, both halves of the range, and both orders of head and tail. -/
theorem witness_PointerArithmetic :
    1 ≤ small.cmdBufferSize ∧ 3 < small.ptrMod ∧ 3 = 2 * small.cmdBufferSize - 1 ∧
    0 ≠ 2 * small.cmdBufferSize - 1 ∧ 1 < small.cmdBufferSize ∧ small.cmdBufferSize ≤ 2 ∧ 2 ≤ small.cmdBufferSize ∧
    (1 ≤ 3 ∧ 1 < small.ptrMod) ∧ (0 < 3 ∧ 3 < small.ptrMod) := by decide

theorem witness_PointersFitPtrBits : Inv ring2 := witness_inv_ring2

/-- Empty, and full. -/
theorem witness_EmptyAndFullFlags :
    (1 ≤ offline0.params.cmdBufferSize ∧ offline0.head < offline0.params.ptrMod ∧
      offline0.tail < offline0.params.ptrMod ∧ offline0.count ≤ offline0.params.cmdBufferSize ∧
      offline0.empty = true) ∧
    (1 ≤ ring2.params.cmdBufferSize ∧ ring2.head < ring2.params.ptrMod ∧ ring2.tail < ring2.params.ptrMod ∧
      ring2.count ≤ ring2.params.cmdBufferSize ∧ ring2.full = true) := by decide

theorem witness_StatusViewFields : ring2.count < 2 ^ 32 := by decide

theorem witness_ResetLeavesTheStatedValues :
    offline0 = State.resetWith small ∧ 1 ≤ small.cmdBufferSize ∧ 1 < small.numConsumers ∧ small.numConsumers ≤ 2 :=
  ⟨rfl, by decide⟩

theorem witness_ResetSatisfiesTheInvariant : Params.vectors.Valid ∧ small.Valid := by decide

theorem witness_EveryStepKeepsTheInvariant : Inv (coming ring2 5 (op (.rxFrame (fr 3 0)))) ∧
    (nextOf (step (coming ring2 5 (op (.rxFrame (fr 3 0)))))).isSome = true :=
  ⟨by constructor <;> decide, by decide⟩

theorem witness_InvariantStatesAlwaysStep : Inv (coming ring2 5 (.micro 2)) := by constructor <;> decide

/-- A state like `offline0` but for the pointers, a stale slot byte, and registers that nothing reads. -/
def otherView : State :=
  { offline0 with
    head := 3
    tail := 3
    slots := [(5, 9)]
    pendingFrame := List.replicate 32 7
    xport := 3
    waiters := List.replicate 2 { Waiter.reset with wantId := 4, timeout := 5, inf := true, start := 6 } }

theorem sameWaiter_otherView : SameWaiter Waiter.reset
    { Waiter.reset with wantId := 4, timeout := 5, inf := true, start := 6 } := by
  constructor <;> decide

theorem sameView_otherView : SameView offline0 otherView := by
  refine ⟨rfl, rfl, rfl, rfl, by decide, rfl, by decide, rfl, rfl, rfl, rfl, ?_, rfl, rfl, rfl⟩
  intro c w v hw hv
  have h1 : w ∈ List.replicate 2 Waiter.reset := List.mem_of_getElem? hw
  have h2 := List.mem_of_getElem? hv
  have h3 : v ∈ List.replicate 2
      { Waiter.reset with wantId := 4, timeout := 5, inf := true, start := 6 } := h2
  rw [List.eq_of_mem_replicate h1, List.eq_of_mem_replicate h3]
  exact sameWaiter_otherView

theorem witness_UnobservableStateStaysUnobservable : Inv offline0 ∧ Inv otherView ∧
    SameView offline0 otherView ∧ (nextOf (step offline0)).isSome = true :=
  ⟨witness_inv_offline0, by constructor <;> decide, sameView_otherView, by decide⟩

theorem witness_StepRunsTheDecodedOperation :
    offline0.inputs = [] ∧
    (coming ring2 5 (op (.peek 0 2))).inputs = [⟨5, op (.peek 0 2)⟩] ∧
    decode small (encode (.peek 0 2)) = .ok (.peek 0 2) ∧
    (coming scan2 5 (.micro 0)).inputs = [⟨5, .micro 0⟩] := by decide

/-- The least reserved opcode, a reserved bit, both reserved controller opcodes, the least handle that is too
wide, each on a port that is ready and on one that is not; no event. -/
theorem witness_IllegalEncodingsChangeNothing :
    (1 < offline0.params.numConsumers ∧ phaseOf offline0 1 = some .idle ∧ 8 ≤ (reqOp 8).toNat ∧ reqRsv 0x13 ≠ 0) ∧
    (kReady offline0 = true ∧ kReqOp 2 = 2 ∧ kReqOp 3 = 3 ∧ kReqOp 0x401 = 1 ∧
      2 ^ offline0.params.handleBits ≤ (kReqH 0x401).toNat) ∧
    (0 < scan2.params.numConsumers ∧ phaseOf scan2 0 = some .scan ∧ Phase.scan ≠ .idle) ∧
    kReady { online0 with kCross := .request 1 } = false ∧
    (coming ring1 0 (.present (.producer 0 5))).inputs = [⟨0, .present (.producer 0 5)⟩] := by decide

theorem witness_ClockNeverGoesBack : (nextOf (step (coming ring1 7 (op (.status 0))))).map (·.now) = some 7 := by decide

theorem witness_ParametersNeverChange : (nextOf (step (coming ring1 7 (.reset)))).isSome = true := by decide

theorem witness_ResetDuringRunAbandonsEverything :
    (coming scan2 7 .reset).inputs = [⟨7, .reset⟩] := by decide

/-- A frame pushed into a ring with room and into a full one, a position that is pending and one that is
not, an operation that leaves the list alone, a phase other than Scan. -/
theorem witness_PrimitivesObeyTheSequenceLaw :
    Inv ring1 ∧ (pendingSeq ring1).toOption = some [fr 1 0xA] ∧ (fr 3 0).WF ring1.params ∧
    ([fr 1 0xA] : List Frame)[0]? = some (fr 1 0xA) ∧ ([fr 1 0xA] : List Frame).length ≤ 1 ∧
    mayChangeRing (.status 0) = false ∧ (nextOf (exec (.status 0) ring1)).isSome = true ∧
    phaseOf ring1 0 ≠ some .scan ∧ (nextOf (microStep 0 ring1)).isSome = true ∧
    Inv ring2 ∧ (pendingSeq ring2).toOption = some [fr 1 0xA, fr 2 0xB] :=
  ⟨witness_inv_ring1, by decide, by decide, by decide, by decide, by decide, by decide, by decide, by decide,
    witness_inv_ring2, by decide⟩

theorem witness_OverflowKeepsTheNewest :
    Inv online0 ∧ (pendingSeq online0).toOption = some [] ∧
    (∀ f ∈ [fr 1 0, fr 2 0, fr 3 0], f.WF online0.params) ∧ 1 ≤ 1 ∧
    [fr 1 0, fr 2 0, fr 3 0].length = online0.params.cmdBufferSize + 1 :=
  ⟨witness_inv_online0, by decide, by decide, by decide, by decide⟩

theorem witness_PopAtShiftsTheOlderFrames : Inv ring2 ∧ 1 < ring2.count ∧ ring2.count ≤ 2 :=
  ⟨witness_inv_ring2, by decide⟩

theorem witness_NopAndKnopOnlyAnswer : phaseOf ring1 1 = some .idle ∧ kReady ring1 = true := by decide

/-- A match at the last position, and no match. -/
theorem witness_PeekAnswersTheOldestMatch :
    Inv ring2 ∧ phaseOf ring2 0 = some .idle ∧ (pendingSeq ring2).toOption = some [fr 1 0xA, fr 2 0xB] ∧
    [fr 1 0xA, fr 2 0xB].length < 2 ^ 64 ∧
    (∃ f, [fr 1 0xA, fr 2 0xB][1]? = some f ∧ f.commandId = 2) ∧
    (∀ j f, j < 1 → [fr 1 0xA, fr 2 0xB][j]? = some f → f.commandId ≠ 2) ∧
    (∀ f ∈ [fr 1 0xA, fr 2 0xB], f.commandId ≠ 9) := by
  refine ⟨witness_inv_ring2, by decide, by decide, by decide, ⟨fr 2 0xB, by decide, by decide⟩, ?_, by decide⟩
  intro j f hj hf
  obtain rfl : j = 0 := by omega
  cases hf
  decide

/-- The last pending position and the first that is not. -/
theorem witness_PopAtRemovesThePosition :
    Inv ring2 ∧ phaseOf ring2 0 = some .idle ∧ (pendingSeq ring2).toOption = some [fr 1 0xA, fr 2 0xB] ∧
    [fr 1 0xA, fr 2 0xB][(1 : U64).toNat]? = some (fr 2 0xB) ∧ [fr 1 0xA, fr 2 0xB].length ≤ (2 : U64).toNat :=
  ⟨witness_inv_ring2, by decide⟩

theorem witness_ClearDiscardsEveryPendingFrame : Inv ring2 ∧ phaseOf ring2 1 = some .idle :=
  ⟨witness_inv_ring2, by decide⟩

theorem witness_StatusAnswersTheView : Inv deferred1 ∧ phaseOf deferred1 0 = some .idle :=
  ⟨witness_inv_deferred1, by decide⟩

theorem witness_WaitForStartsAWait : (ring1.waiters[1]?).map (·.phase) = some .idle := by decide

theorem witness_WaitForeverStartsAWaitWithNoTimeout :
    (ring1.waiters[1]?).map (·.phase) = some .idle ∧
    ((after forever9 [.micro 0]).waiters[0]?).map (fun w => (w.phase, w.inf)) = some (.check, true) := by decide

/-- A match at position 1 with another frame before it, and no match. -/
theorem witness_ScanTakesTheOldestMatch :
    Inv scan2 ∧ (scan2.waiters[0]?).map (fun w => (w.phase, w.wantId)) = some (.scan, 2) ∧
    (pendingSeq scan2).toOption = some [fr 1 0xA, fr 2 0xB] ∧ [fr 1 0xA, fr 2 0xB][1]? = some (fr 2 0xB) ∧
    (fr 2 0xB).commandId = 2 ∧ (fr 1 0xA).commandId ≠ 2 ∧
    Inv scan9 ∧ (scan9.waiters[0]?).map (fun w => (w.phase, w.wantId)) = some (.scan, 9) ∧
    (∀ f ∈ [fr 1 0xA, fr 2 0xB], f.commandId ≠ 9) :=
  ⟨witness_inv_scan2, by decide, by decide, by decide, by decide, by decide, witness_inv_scan9, by decide, by decide⟩

theorem witness_ScanIsFifoPerIdentifier :
    Inv scan2 ∧ (scan2.waiters[0]?).map (·.phase) = some .scan ∧
    (nextOf (microStep 0 scan2)).map (fun t => (pendingSeq t).toOption) = some (some [fr 1 0xA]) :=
  ⟨witness_inv_scan2, by decide, by decide⟩

/-- Timeout 0: elapsed 0 is not over it, elapsed 1 is. -/
theorem witness_CheckComparesStrictly :
    Inv check9 ∧ Inv { check9 with now := 1 } ∧
    (check9.waiters[0]?).map (fun w => (w.phase, w.inf, w.timeout, w.start)) = some (.check, false, 0, 0) :=
  ⟨witness_inv_check9, by constructor <;> decide, by decide⟩

theorem witness_WakeReturnsToScan : (sleep9.waiters[0]?).map (·.phase) = some .sleep := by decide

theorem witness_NoMatchOnlyAfterTheTimeout :
    Inv (coming check9 1 (.micro 0)) ∧ (check9.waiters[0]?).map (·.phase) = some .check ∧
    (nextOf (step (coming check9 1 (.micro 0)))).map (·.out) = some [.done 0 (rspWord .noMatch 0) none] :=
  ⟨by constructor <;> decide, by decide, by decide⟩

theorem witness_WaitForEndsOnceTheClockPasses :
    Inv { scan9 with inputs := [⟨0, .micro 0⟩, ⟨1, .micro 0⟩] } ∧
    (scan9.waiters[0]?).map (fun w => (w.phase, w.inf, w.start.toNat + w.timeout.toNat)) = some (.scan, false, 0) ∧
    0 < (1 : U64).toNat :=
  ⟨by constructor <;> decide, by decide, by decide⟩

theorem witness_ForeverWaitWithNoMatchGoesOn :
    Inv forever9 ∧ (forever9.waiters[0]?).map (fun w => (w.phase, w.inf, w.wantId)) = some (.scan, true, 9) ∧
    (pendingSeq forever9).toOption = some [fr 1 0xA] ∧ withId 9 [fr 1 0xA] = [] :=
  ⟨witness_inv_forever9, by decide, by decide, by decide⟩

theorem witness_MicroStepsIgnoreTheConnection : (nextOf (microStep 0 scan2)).isSome = true := by decide

theorem witness_FirstScanWins :
    Inv rivals ∧ rivals.waiters.map (fun w => (w.phase, w.wantId)) = [(.scan, 1), (.scan, 1)] ∧
    (pendingSeq rivals).toOption = some [fr 1 0xA] ∧ withId 1 [fr 1 0xA] = [fr 1 0xA] :=
  ⟨witness_inv_rivals, by decide, by decide, by decide⟩

theorem witness_NothingElseTouchesAWait :
    (nextOf (step (coming sleep9 5 (op (.clear 1))))).isSome = true ∧ (Turn.mk 5 (op (.clear 1))).act ≠ .reset ∧
    (Turn.mk 5 (op (.clear 1))).act ≠ .micro 0 ∧ startsWaitOf 0 (.clear 1) = false := by decide

/-- With room, and full. -/
theorem witness_RxFramePushes :
    Inv ring1 ∧ Inv ring2 ∧ ring1.online = true ∧ ring2.online = true ∧ (fr 3 0).WF ring2.params ∧
    ring1.full = false ∧ ring2.full = true :=
  ⟨witness_inv_ring1, witness_inv_ring2, by decide⟩

theorem witness_RxErrorGoesOffline : Inv ring2 ∧ ring2.online = true := ⟨witness_inv_ring2, by decide⟩

theorem witness_OfflineProducerConsumesNothing : offline0.online = false := by decide

theorem witness_SendTransmitsOrDefers :
    Inv online0 ∧ Inv offline0 ∧ phaseOf online0 0 = some .idle ∧ phaseOf offline0 1 = some .idle ∧
    (fr 1 0).WF small ∧ online0.online = true ∧ offline0.online = false :=
  ⟨witness_inv_online0, witness_inv_offline0, by decide⟩

/-- The largest handle, and the least that does not fit. -/
theorem witness_ReconnectFlushesFirst :
    Inv deferred1 ∧ Inv offline0 ∧ Inv online0 ∧ (0xFF : U64).toNat < 2 ^ small.handleBits ∧
    2 ^ small.handleBits ≤ (0x100 : U64).toNat ∧ deferred1.online = false ∧ deferred1.pendingValid = true ∧
    offline0.pendingValid = false ∧ online0.online = true :=
  ⟨witness_inv_deferred1, witness_inv_offline0, witness_inv_online0, by decide⟩

theorem witness_LatestDeferredSendIsFlushedOnce :
    Inv offline0 ∧ offline0.online = false ∧ phaseOf offline0 0 = some .idle ∧ phaseOf offline0 1 = some .idle ∧
    (fr 1 0).WF offline0.params ∧ (fr 2 0).WF offline0.params ∧ (0x2A : U64).toNat < 2 ^ offline0.params.handleBits ∧
    (0x2B : U64).toNat < 2 ^ offline0.params.handleBits :=
  ⟨witness_inv_offline0, by decide⟩

theorem witness_OnlyTheProducerMovesHead :
    (nextOf (step (coming ring1 0 (op (.rxFrame (fr 2 0)))))).map (·.head) = some 2 ∧ ring1.head = 1 ∧
    op (.rxFrame (fr 2 0)) ≠ .reset := by decide

/-- `online` cleared, and set. -/
theorem witness_OnlyRxErrorAndReconnectWriteOnline :
    (nextOf (step (coming ring1 0 (op .rxError)))).map (·.online) = some false ∧ ring1.online = true ∧
    (nextOf (step (coming offline0 0 (op (.reconnect 1))))).map (·.online) = some true ∧ offline0.online = false := by
  decide

/-- The handle written, and kept offline. -/
theorem witness_OnlyReconnectWritesTheHandle :
    (Inv online0 ∧ online0.online = true ∧ online0.xportWritten = true) ∧
    (nextOf (step (coming offline0 0 (op (.reconnect 1))))).map rxHandle = some (some 1) ∧
    op (.reconnect 1) ≠ .reset ∧
    (nextOf (step (coming online0 0 (op .rxError)))).map rxHandle = some (some 0x2A) :=
  ⟨⟨witness_inv_online0, by decide⟩, by decide⟩

/-- `pending_frame` written, overwritten and emptied. -/
theorem witness_OnlySendAndReconnectWritePendingFrame :
    (nextOf (step (coming offline0 0 (op (.send 0 (fr 1 0)))))).map (·.pendingValid) = some true ∧
    offline0.pendingValid = false ∧
    (nextOf (step (coming deferred1 0 (op (.send 0 (fr 9 0)))))).map (·.pendingFrame) ≠ some deferred1.pendingFrame ∧
    (nextOf (step (coming deferred1 0 (op (.reconnect 1))))).map (·.pendingValid) = some false ∧
    deferred1.pendingValid = true := by decide

theorem witness_FramesAreConserved :
    Inv (coming ring2 0 (op (.rxFrame (fr 3 0)))) ∧
    (nextOf (step (coming ring2 0 (op (.rxFrame (fr 3 0)))))).map (fun t => (pendingSeq t).toOption) =
      some (some [fr 2 0xB, fr 3 0]) :=
  ⟨by constructor <;> decide, by decide⟩

theorem witness_TransmittedFramesCarryTheCurrentHandle :
    (nextOf (step (coming online0 0 (op (.send 0 (fr 1 0)))))).map (·.out) =
      some [.tx 1 0x2A, .done 0 0 none] := by decide

theorem witness_OverflowIsReportedOnceAndOnlyThen :
    (nextOf (step (coming ring2 0 (op (.rxFrame (fr 3 0)))))).map (·.out) = some [.ovf] := by decide

theorem witness_AnswersGoOnlyToTheRequester :
    (nextOf (step (coming ring2 0 (op (.status 1))))).map (·.out) = some [.done 1 0x20900 none] ∧
    (nextOf (step (coming ring2 0 (op .knop)))).map (·.out) = some [.kDone 0] := by decide

theorem witness_BusyPortAcceptsNothing :
    consumerOf (.status 0) = some 0 ∧ (scan2.waiters[0]?).map (·.phase) = some .scan := by decide

theorem witness_AbsentPortsAndMalformedFramesAreRefused :
    ring1.waiters[2]? = none ∧ consumerOf (.status 2) = some 2 ∧
    (Frame.mk 1 0 0 0 [5]).payload.length ≠ ring1.params.payloadMax ∧ phaseOf ring1 0 = some .idle ∧
    ring1.online = true := by decide

theorem witness_AHeldLockKeepsOthersOut :
    ({ ring1 with lock := .held .producer } : State).lock = .held .producer ∧ phaseOf ring1 0 = some .idle ∧
    phaseOf scan2 0 = some .scan ∧ (fr 1 0).WF ring1.params ∧ (0xFF : U64).toNat < 2 ^ ring1.params.handleBits := by
  decide

end Sys2Proof.Tests
end

section
/-! The scope of a step (`spec/00_scope.md`): which operation or micro-step one step runs, and what the
model refuses. -/

namespace Sys2Proof.Machine

open Sys2Proof

/-! ## What one step runs -/

theorem step_of_no_turn {s : State} (h : s.inputs = []) : step s = .next (idleStep s) := by
  unfold step
  rw [h]

theorem step_of_turn {s : State} {t : Turn} {rest : List Turn} (h : s.inputs = t :: rest) :
    step s = stepAction t.act (beginTurn t rest s) := by
  unfold step
  rw [h]

theorem stepPresent_of_decode {s : State} {w : PortWords} {i : Instr} (h : decode s.params w = .ok i) :
    stepPresent w s = exec i s := by
  unfold stepPresent
  rw [h]

/-- The turn's agent steps in a state with the same parameters, so the words decode alike before and after
the turn is taken. -/
theorem step_present {s : State} {t : Turn} {rest : List Turn} {w : PortWords} {i : Instr}
    (hin : s.inputs = t :: rest) (hact : t.act = .present w) (hdec : decode s.params w = .ok i) :
    step s = exec i (beginTurn t rest s) := by
  have hdec' : decode (beginTurn t rest s).params w = .ok i := by rwa [beginTurn_params]
  calc step s = stepAction (.present w) (beginTurn t rest s) := by rw [step_of_turn hin, hact]
    _ = stepPresent w (beginTurn t rest s) := rfl
    _ = exec i (beginTurn t rest s) := stepPresent_of_decode hdec'

theorem step_micro {s : State} {t : Turn} {rest : List Turn} {c : Nat}
    (hin : s.inputs = t :: rest) (hact : t.act = .micro c) :
    step s = microStep c (beginTurn t rest s) := by
  calc step s = stepAction (.micro c) (beginTurn t rest s) := by rw [step_of_turn hin, hact]
    _ = microStep c (beginTurn t rest s) := rfl

/-- Settles O17: the state the statement gives the turn is `beginTurn`, with the clock of `clockRead`. -/
theorem stepRunsTheDecodedOperation : Obligations.StepRunsTheDecodedOperation := by
  intro s
  refine ⟨step_of_no_turn, ?_⟩
  rintro t rest s0 hin rfl
  exact ⟨fun w i hact hdec => step_present hin hact hdec, fun c hact => step_micro hin hact⟩

/-! ## What the model refuses -/

theorem phaseOf_eq_some {s : State} {c : Nat} {ph : Phase} :
    phaseOf s c = some ph ↔ ∃ w, s.waiters[c]? = some w ∧ w.phase = ph := by
  unfold phaseOf
  exact Option.map_eq_some_iff

/-- Every operation of a consumer port is a request on that port (rules R23, R75): it asks the port before
it does anything. -/
theorem exec_eq_onPort {i : Instr} {c : Nat} (h : consumerOf i = some c) (s : State) :
    ∃ body, exec i s = onPort c s body := by
  cases i with
  | nop | peek | popAt | clear | waitFor | waitForever | send | status =>
    obtain rfl := Option.some.inj h
    exact ⟨_, rfl⟩
  | rxFrame | rxError | knop | reconnect => cases h

theorem onPort_absent {c : Nat} {s : State} (h : s.waiters[c]? = none)
    (body : Waiter → Host.Outcome State Fault Refusal) : onPort c s body = .refused .noSuchPort := by
  unfold onPort
  rw [h]

theorem exec_absent {i : Instr} {c : Nat} {s : State} (hi : consumerOf i = some c)
    (h : s.waiters[c]? = none) : exec i s = .refused .noSuchPort := by
  obtain ⟨body, hexec⟩ := exec_eq_onPort hi s
  rw [hexec, onPort_absent h]

theorem microStep_absent {c : Nat} {s : State} (h : s.waiters[c]? = none) :
    microStep c s = .refused .noSuchPort := by
  unfold microStep
  rw [h]

theorem withFrame_malformed {f : Frame} {s : State} (h : ¬ f.WF s.params)
    (body : Host.Outcome State Fault Refusal) : withFrame f s body = .refused .malformedFrame :=
  if_neg h

theorem onProducer_online {s : State} (h : s.online = true) (body : Host.Outcome State Fault Refusal) :
    onProducer s body = body :=
  if_pos h

/-- SEND on a ready port checks its frame before it takes the lock (rule R126; log 16). -/
theorem exec_send_malformed {c : Nat} {f : Frame} {s : State} (hready : phaseOf s c = some .idle)
    (hf : ¬ f.WF s.params) : exec (.send c f) s = .refused .malformedFrame := by
  obtain ⟨w, hw, hidle⟩ := phaseOf_eq_some.1 hready
  exact (onPort_ready c s w _ hw hidle).trans (withFrame_malformed hf _)

/-- RX_FRAME while online checks its frame before it takes the lock (rule R121; log 16). -/
theorem exec_rxFrame_malformed {f : Frame} {s : State} (honline : s.online = true)
    (hf : ¬ f.WF s.params) : exec (.rxFrame f) s = .refused .malformedFrame :=
  (onProducer_online honline _).trans (withFrame_malformed hf _)

/-- Settles O56: the port is asked first, then the size of the frame. -/
theorem absentPortsAndMalformedFramesAreRefused : Obligations.AbsentPortsAndMalformedFramesAreRefused := by
  intro s c
  refine ⟨fun habsent => ⟨fun i hi => exec_absent hi habsent, microStep_absent habsent⟩, fun f hf => ?_⟩
  exact ⟨fun hready => exec_send_malformed hready hf, fun honline => exec_rxFrame_malformed honline hf⟩

end Sys2Proof.Machine
end

section
/-! How the pointers of the ring work (`spec/10_state.md` section 3). -/

namespace Sys2Proof.Machine

open Sys2Proof

/-! ## Pointer arithmetic -/

theorem ptrMod_pos {p : Params} (hN : 1 ≤ p.cmdBufferSize) : 0 < p.ptrMod := by
  unfold Params.ptrMod
  omega

theorem ptrInc_last {p : Params} {q : Nat} (h : q + 1 = p.ptrMod) : ptrInc p q = 0 := if_pos h

theorem ptrInc_below {p : Params} {q : Nat} (h : q + 1 ≠ p.ptrMod) : ptrInc p q = q + 1 := if_neg h

theorem ptrInc_eq_mod {p : Params} {q : Nat} (hq : q < p.ptrMod) : ptrInc p q = (q + 1) % p.ptrMod := by
  by_cases h : q + 1 = p.ptrMod
  · rw [ptrInc_last h, h, Nat.mod_self]
  · rw [ptrInc_below h, Nat.mod_eq_of_lt (by omega)]

theorem ptrInc_lt {p : Params} {q : Nat} (hq : q < p.ptrMod) : ptrInc p q < p.ptrMod := by
  rw [ptrInc_eq_mod hq]
  exact Nat.mod_lt _ (by omega)

theorem ptrAdd_lt {p : Params} (hN : 1 ≤ p.cmdBufferSize) (q i : Nat) : ptrAdd p q i < p.ptrMod :=
  Nat.mod_lt _ (ptrMod_pos hN)

theorem ptrAdd_zero {p : Params} {q : Nat} (hq : q < p.ptrMod) : ptrAdd p q 0 = q := Nat.mod_eq_of_lt hq

/-- One position further is one `inc` further. -/
theorem ptrAdd_succ {p : Params} (hN : 1 ≤ p.cmdBufferSize) (q i : Nat) :
    ptrAdd p q (i + 1) = ptrInc p (ptrAdd p q i) := by
  rw [ptrInc_eq_mod (ptrAdd_lt hN q i)]
  unfold ptrAdd
  rw [Nat.mod_add_mod, Nat.add_assoc]

/-- Counted from the pointer after `q` every position moves one down. -/
theorem ptrAdd_ptrInc {p : Params} {q : Nat} (hq : q < p.ptrMod) (i : Nat) :
    ptrAdd p (ptrInc p q) i = ptrAdd p q (i + 1) := by
  rw [ptrInc_eq_mod hq]
  unfold ptrAdd
  rw [Nat.mod_add_mod, Nat.add_assoc, Nat.add_comm 1 i]

theorem ptrAdd_eq_iterate {p : Params} {q : Nat} (hN : 1 ≤ p.cmdBufferSize) (hq : q < p.ptrMod) (i : Nat) :
    ptrAdd p q i = (ptrInc p)^[i] q := by
  induction i with
  | zero => exact ptrAdd_zero hq
  | succ i ih => rw [ptrAdd_succ hN, ih, Function.iterate_succ_apply']

theorem ptrSlot_low {p : Params} {q : Nat} (h : q < p.cmdBufferSize) : ptrSlot p q = q := if_pos h

theorem ptrSlot_high {p : Params} {q : Nat} (h : p.cmdBufferSize ≤ q) :
    ptrSlot p q = q - p.cmdBufferSize := if_neg (by omega)

theorem ptrSlot_lt {p : Params} {q : Nat} (hq : q < p.ptrMod) : ptrSlot p q < p.cmdBufferSize := by
  unfold Params.ptrMod at hq
  unfold ptrSlot
  split_ifs <;> omega

/-- Both pointers of a slot have the same remainder modulo `N`. -/
theorem ptrSlot_eq_mod {p : Params} {q : Nat} (hq : q < p.ptrMod) : ptrSlot p q = q % p.cmdBufferSize := by
  by_cases h : q < p.cmdBufferSize
  · rw [ptrSlot_low h, Nat.mod_eq_of_lt h]
  · have hlt : q - p.cmdBufferSize < p.cmdBufferSize := by
      unfold Params.ptrMod at hq
      omega
    rw [ptrSlot_high (by omega), Nat.mod_eq_sub_mod (by omega), Nat.mod_eq_of_lt hlt]

theorem ptrCount_le {p : Params} {h t : Nat} (hle : t ≤ h) : ptrCount p h t = h - t := if_pos hle

theorem ptrCount_gt {p : Params} {h t : Nat} (hgt : h < t) : ptrCount p h t = h + p.ptrMod - t :=
  if_neg (by omega)

theorem ptrCount_lt {p : Params} {h : Nat} (hh : h < p.ptrMod) (t : Nat) : ptrCount p h t < p.ptrMod := by
  unfold ptrCount
  split_ifs <;> omega

/-- The head is `count` positions after the tail. -/
theorem ptrAdd_ptrCount {p : Params} {h t : Nat} (hh : h < p.ptrMod) (ht : t < p.ptrMod) :
    ptrAdd p t (ptrCount p h t) = h := by
  unfold ptrAdd
  rcases Nat.lt_or_ge h t with hlt | hge
  · rw [ptrCount_gt hlt, show t + (h + p.ptrMod - t) = h + p.ptrMod by omega, Nat.add_mod_right,
      Nat.mod_eq_of_lt hh]
  · rw [ptrCount_le hge, Nat.add_sub_cancel' hge, Nat.mod_eq_of_lt hh]

/-- `k` positions after the tail the count is `k`: the modulus `2N` tells all counts apart. -/
theorem ptrCount_ptrAdd {p : Params} {t k : Nat} (ht : t < p.ptrMod) (hk : k < p.ptrMod) :
    ptrCount p (ptrAdd p t k) t = k := by
  unfold ptrAdd
  rcases Nat.lt_or_ge (t + k) p.ptrMod with hlt | hge
  · rw [Nat.mod_eq_of_lt hlt, ptrCount_le (by omega)]
    omega
  · rw [Nat.mod_eq_sub_mod hge, Nat.mod_eq_of_lt (by omega), ptrCount_gt (by omega)]
    omega

/-- Settles O8: the modular sums above, read at the boundaries of rule R14. -/
theorem pointerArithmetic : Obligations.PointerArithmetic := by
  intro p q hN hq
  have hmod : p.ptrMod = 2 * p.cmdBufferSize := rfl
  refine ⟨fun h => ptrInc_last (by omega), fun h => ptrInc_below (by omega),
    fun i _ => ⟨rfl, ptrAdd_eq_iterate hN hq i⟩, ptrSlot_low, ptrSlot_high, ptrSlot_eq_mod hq,
    fun t ht => ⟨ptrCount_le, fun hlt => ?_, ptrCount_lt hq t⟩,
    ptrInc_lt hq, ptrAdd_lt hN q, ptrSlot_lt hq⟩
  rw [ptrCount_gt hlt]
  omega

/-! ## The derived flags -/

theorem count_eq_zero_iff {s : State} (htail : s.tail < s.params.ptrMod) :
    s.count = 0 ↔ s.head = s.tail := by
  unfold State.count ptrCount
  split_ifs <;> omega

/-- Two pointers with one slot are equal or `N` apart. -/
theorem ptrSlot_eq_iff {p : Params} {h t : Nat} (hh : h < p.ptrMod) (ht : t < p.ptrMod) :
    ptrSlot p h = ptrSlot p t ↔ h = t ∨ ptrCount p h t = p.cmdBufferSize := by
  unfold ptrSlot ptrCount
  unfold Params.ptrMod at *
  split_ifs <;> omega

/-- Settles O10: equal slots mean an equal pointer (empty) or one `N` away (full). -/
theorem emptyAndFullFlags : Obligations.EmptyAndFullFlags := by
  intro s hN hhead htail _
  have hempty : s.empty = true ↔ s.head = s.tail := decide_eq_true_iff
  have hfull : s.full = true ↔ s.count = s.params.cmdBufferSize := decide_eq_true_iff
  have hzero := count_eq_zero_iff htail
  refine ⟨hempty, hempty.trans hzero.symm, hfull, ?_⟩
  have hslot : ptrSlot s.params s.head = ptrSlot s.params s.tail ↔
      s.head = s.tail ∨ s.count = s.params.cmdBufferSize := ptrSlot_eq_iff hhead htail
  rw [hfull, hslot]
  omega

end Sys2Proof.Machine
end

section
/-! What one operation, one micro-step and one step can change (`spec/10_state.md` section 7, rule R28), said
once: the register changes of the model's own primitives, up to what the ports show. -/

namespace Sys2Proof.Machine

open Sys2Proof

/-! ## The primitives do not see the lock -/

/-- The state with another lock and another grant. -/
def relock (l : Lock) (x : LockCross) (s : State) : State := { s with lock := l, lockCross := x }

theorem lockGrant_lockRequest (a : Agent) (s : State) :
    ∃ l x, lockGrant a (lockRequest a s) = relock l x s := by
  cases a <;> exact ⟨_, _, rfl⟩

/-- A body run under the lock neither reads nor writes the lock and the grant (rule R47). -/
def IgnoresLock {α : Type} (body : State → Except Fault (α × State)) : Prop :=
  ∀ l x s, body (relock l x s) = (body s).map (Prod.map id (relock l x))

/-- So it leaves them as they were. -/
theorem IgnoresLock.keeps {α : Type} {body : State → Except Fault (α × State)} (hb : IgnoresLock body)
    {s s1 : State} {r : α} (h : body s = .ok (r, s1)) : s1 = relock s.lock s.lockCross s1 := by
  have hs := hb s.lock s.lockCross s
  rw [show relock s.lock s.lockCross s = s from rfl, h] at hs
  injection hs with hs
  injection hs

theorem slotWrite_relock (l : Lock) (x : LockCross) (s : State) (k : Nat) (bs : List Byte) :
    slotWrite (relock l x s) k bs = (slotWrite s k bs).map (relock l x) := by
  show memWrite (relock l x s) (slotAddr s.params k) bs = _
  unfold slotWrite memWrite
  rw [show (relock l x s).params = s.params from rfl]
  split_ifs <;> rfl

theorem slotRead_relock (l : Lock) (x : LockCross) (s : State) (k : Nat) :
    slotRead (relock l x s) k = slotRead s k := rfl

theorem pendingAt_relock (l : Lock) (x : LockCross) (s : State) (i : Nat) :
    pendingAt (relock l x s) i = pendingAt s i := rfl

theorem pendingSlot_relock (l : Lock) (x : LockCross) (s : State) (i : Nat) :
    pendingSlot (relock l x s) i = pendingSlot s i := rfl

theorem count_relock (l : Lock) (x : LockCross) (s : State) : (relock l x s).count = s.count := rfl

theorem ignoresLock_push (f : Frame) : IgnoresLock (push f) := by
  intro l x s
  unfold push pushWire
  rw [show ptrSlot (relock l x s).params (relock l x s).head = ptrSlot s.params s.head from rfl,
    slotWrite_relock]
  cases slotWrite s (ptrSlot s.params s.head) f.enc <;> rfl

theorem scanFrom_relock (l : Lock) (x : LockCross) (s : State) (P : Frame → Bool) (n i : Nat) :
    scanFrom (relock l x s) P i n = scanFrom s P i n := by
  induction n generalizing i with
  | zero => rfl
  | succ n ih =>
    unfold scanFrom
    rw [pendingAt_relock]
    cases pendingAt s i with
    | error e => rfl
    | ok f => simp only [ih]

theorem ignoresLock_peekMatching (P : Frame → Bool) : IgnoresLock (peekMatching P) := by
  intro l x s
  unfold peekMatching
  rw [count_relock, scanFrom_relock]
  cases scanFrom s P 0 s.count <;> rfl

theorem shiftOlder_relock (l : Lock) (x : LockCross) (s : State) (i : Nat) :
    shiftOlder (relock l x s) i = (shiftOlder s i).map (relock l x) := by
  induction i generalizing s with
  | zero => rfl
  | succ j ih =>
    unfold shiftOlder
    rw [pendingSlot_relock, pendingSlot_relock, slotRead_relock]
    cases slotRead s (pendingSlot s j) with
    | error e => rfl
    | ok bs =>
      simp only [slotWrite_relock]
      cases slotWrite s (pendingSlot s (j + 1)) bs with
      | error e => rfl
      | ok s1 => exact ih s1

theorem ignoresLock_popAtPos (i : Nat) : IgnoresLock (popAtPos i) := by
  intro l x s
  unfold popAtPos
  rw [count_relock, pendingAt_relock, shiftOlder_relock]
  split_ifs
  · cases pendingAt s i with
    | error e => rfl
    | ok f => cases shiftOlder s i <;> rfl
  · rfl

theorem ignoresLock_scanBody (id : U64) : IgnoresLock (scanBody id) := by
  intro l x s
  unfold scanBody
  rw [ignoresLock_peekMatching]
  cases peekMatching (matchesId id) s with
  | error e => rfl
  | ok r =>
    obtain ⟨i, s1⟩ := r
    cases i with
    | none => rfl
    | some i => exact ignoresLock_popAtPos i l x s1

theorem ignoresLock_send (f : Frame) : IgnoresLock (fun s => .ok (sendBody f s)) := by
  intro l x s
  unfold sendBody
  by_cases h : s.online = true
  · simp only [show (relock l x s).online = s.online from rfl, if_pos h]
    rfl
  · simp only [show (relock l x s).online = s.online from rfl, if_neg h]
    rfl

theorem ignoresLock_clear : IgnoresLock (fun s => .ok ((), clearRing s)) := fun _ _ _ => rfl

theorem ignoresLock_status : IgnoresLock (fun s => .ok (statusView s, s)) := fun _ _ _ => rfl

theorem ignoresLock_goOffline : IgnoresLock (fun s => .ok ((), goOffline s)) := fun _ _ _ => rfl

theorem goOnline_relock (h : U64) (l : Lock) (x : LockCross) (s : State) :
    goOnline h (relock l x s) = relock l x (goOnline h s) := by
  rw [goOnline_eq, goOnline_eq]
  rfl

theorem reconnectBody_online {h : U64} {s : State} (hs : s.online = true) :
    reconnectBody h s = (.refused, s) := if_pos hs

theorem reconnectBody_offline {h : U64} {s : State} (hs : s.online = false) :
    reconnectBody h s = (.ok, goOnline h s) := if_neg (by rw [hs]; exact Bool.false_ne_true)

theorem kPerform_online {h : U64} {s : State} (hs : s.online = true) :
    kPerform (kLatch h s) = (.refused, { s with kCross := .acknowledged .refused }) := by
  rw [kPerform_kLatch, reconnectBody_online (s := kLatch h s) hs]
  rfl

theorem kPerform_offline {h : U64} {s : State} (hs : s.online = false) :
    kPerform (kLatch h s) = (.ok, { goOnline h s with kCross := .acknowledged .ok }) := by
  rw [kPerform_kLatch, reconnectBody_offline (s := kLatch h s) hs, goOnline_eq, goOnline_eq]
  rfl

theorem ignoresLock_reconnect (h : U64) : IgnoresLock (fun s => .ok (kPerform (kLatch h s))) := by
  intro l x s
  cases hs : s.online with
  | true =>
    simp only [kPerform_online hs, kPerform_online (s := relock l x s) hs]
    rfl
  | false =>
    simp only [kPerform_offline hs, kPerform_offline (s := relock l x s) hs, goOnline_relock]
    rfl

/-! ## The same registers -/

/-- `t` is `s` but for what the ports show, the count of draws, and a grant taken back: no register of the
block differs. -/
def SameRegisters (s t : State) : Prop :=
  ∃ x es n, t = { s with lockCross := x, out := es, draws := n } ∧ (x = s.lockCross ∨ x = .idle)

namespace SameRegisters

theorem refl (s : State) : SameRegisters s s := ⟨s.lockCross, s.out, s.draws, rfl, .inl rfl⟩

theorem trans {s t u : State} (hst : SameRegisters s t) (htu : SameRegisters t u) : SameRegisters s u := by
  obtain ⟨x, es, n, rfl, hx⟩ := hst
  obtain ⟨y, fs, m, rfl, hy⟩ := htu
  refine ⟨y, fs, m, rfl, ?_⟩
  rcases hy with rfl | rfl
  · exact hx
  · exact .inr rfl

theorem emit (e : Event) (s : State) : SameRegisters s (emit e s) := ⟨_, _, _, rfl, .inl rfl⟩

theorem respond (c : Nat) (st : Status) (v : U64) (d : Option Nat) (s : State) :
    SameRegisters s (respond c st v d s) := emit _ s

theorem drawNext (s : State) : SameRegisters s (drawNext s) := ⟨_, _, _, rfl, .inl rfl⟩

theorem lockRelease {s : State} (hfree : s.lock = .free) : SameRegisters s (lockRelease s) := by
  refine ⟨.idle, s.out, s.draws, ?_, .inr rfl⟩
  unfold Machine.lockRelease
  rw [← hfree]

/-- What a consumer operation leaves after its body: the lock is given back and the port answers. -/
theorem answered {s : State} (hfree : s.lock = .free) (c : Nat) (st : Status) (v : U64) (d : Option Nat) :
    SameRegisters s (Machine.respond c st v d (Machine.lockRelease s)) :=
  (lockRelease hfree).trans (respond c st v d _)

theorem setWaiter {s t : State} (h : SameRegisters s t) (c : Nat) (w : Waiter) :
    SameRegisters (setWaiter c w s) (setWaiter c w t) := by
  obtain ⟨x, es, n, rfl, hx⟩ := h
  exact ⟨x, es, n, rfl, hx⟩

variable {s t : State}

theorem head (h : SameRegisters s t) : t.head = s.head := by obtain ⟨_, _, _, rfl, -⟩ := h; rfl
theorem online (h : SameRegisters s t) : t.online = s.online := by obtain ⟨_, _, _, rfl, -⟩ := h; rfl
theorem xport (h : SameRegisters s t) : t.xport = s.xport := by obtain ⟨_, _, _, rfl, -⟩ := h; rfl
theorem pendingValid (h : SameRegisters s t) : t.pendingValid = s.pendingValid := by
  obtain ⟨_, _, _, rfl, -⟩ := h; rfl
theorem pendingFrame (h : SameRegisters s t) : t.pendingFrame = s.pendingFrame := by
  obtain ⟨_, _, _, rfl, -⟩ := h; rfl
theorem now (h : SameRegisters s t) : t.now = s.now := by obtain ⟨_, _, _, rfl, -⟩ := h; rfl

end SameRegisters

/-- Everything `with lock` can do around a body that does not see the lock: the body runs on the state as it
is, and the lock is free again after it. -/
theorem withLock_next_of_ignoresLock {α : Type} {a : Agent} {s t : State}
    {body : State → Except Fault (α × State)} {after : α → State → Host.Outcome State Fault Refusal}
    (hb : IgnoresLock body) (h : withLock a s body after = .next t) :
    t = s ∨ ∃ r s1, body s = .ok (r, s1) ∧ s1.lock = .free ∧
      after r (lockRelease s1) = .next t := by
  obtain ⟨-, rfl⟩ | ⟨hfree, r, g1, hbody, hafter⟩ := withLock_next a s t body after h
  · exact .inl rfl
  obtain ⟨l, x, hg⟩ := lockGrant_lockRequest a s
  rw [hg, hb] at hbody
  cases hs : body s with
  | error e => rw [hs] at hbody; cases hbody
  | ok rs =>
    obtain ⟨r', s1⟩ := rs
    rw [hs] at hbody
    cases hbody
    have hlock : s1.lock = .free := (congrArg State.lock (hb.keeps hs)).trans hfree
    exact .inr ⟨_, s1, rfl, hlock, hafter⟩

/-! ## One operation -/

/-- The register changes an operation can make. A port that is not ready, a held lock, and an answer that
changes no register are all `unchanged`. -/
inductive OpChange (s : State) : Instr → State → Prop
  | unchanged (i : Instr) : OpChange s i s
  /-- Rule R86. -/
  | popAt {c : Nat} {a : U64} {f : Frame} {t : State} :
      popAtPos a.toNat s = .ok (some f, t) → OpChange s (.popAt c a) t
  /-- Rule R87. -/
  | clear (c : Nat) : OpChange s (.clear c) (clearRing s)
  /-- Rules R100, R105: `v` is the context of the wait accepted. -/
  | startWait {i : Instr} {c : Nat} {w : Waiter} (v : Waiter) :
      startsWaitOf c i = true → s.waiters[c]? = some w → w.phase = .idle → v.start = s.now →
      OpChange s i (setWaiter c v s)
  /-- Rule R126, offline. -/
  | defer {c : Nat} {f : Frame} : f.WF s.params → s.online = false →
      OpChange s (.send c f) { s with pendingFrame := f.enc, pendingValid := true }
  /-- Rule R121. -/
  | rxFrame {f : Frame} {b : Bool} {t : State} : f.WF s.params → s.online = true →
      push f s = .ok (b, t) → OpChange s (.rxFrame f) t
  /-- Rule R123. -/
  | rxError : s.online = true → OpChange s .rxError (goOffline s)
  /-- Rule R125, offline. -/
  | reconnect {h : U64} : handleFits s.params h → s.online = false →
      OpChange s (.reconnect h) (goOnline h s)

/-- The operation of `i` made one of its register changes and leads to `s'`. -/
def ChangesTo (s : State) (i : Instr) (s' : State) : Prop := ∃ t, OpChange s i t ∧ SameRegisters t s'

theorem changesTo_same {s s' : State} {i : Instr} (h : SameRegisters s s') : ChangesTo s i s' :=
  ⟨s, .unchanged i, h⟩

/-- An operation on a consumer port, by what its body does on a ready one. -/
theorem onPort_changes {c : Nat} {s s' : State} {i : Instr}
    {body : Waiter → Host.Outcome State Fault Refusal} (h : onPort c s body = .next s')
    (hbody : ∀ w, s.waiters[c]? = some w → w.phase = .idle → body w = .next s' → ChangesTo s i s') :
    ChangesTo s i s' := by
  obtain ⟨w, hw, ⟨-, rfl⟩ | ⟨hidle, hb⟩⟩ := onPort_next c s s' body h
  · exact changesTo_same (.refl _)
  · exact hbody w hw hidle hb

/-- An operation that takes the lock, by what its body does. -/
theorem withLock_changes {α : Type} {a : Agent} {s s' : State} {i : Instr}
    {body : State → Except Fault (α × State)} {after : α → State → Host.Outcome State Fault Refusal}
    (hb : IgnoresLock body) (h : withLock a s body after = .next s')
    (hbody : ∀ r t, body s = .ok (r, t) → t.lock = .free →
      after r (lockRelease t) = .next s' → ChangesTo s i s') : ChangesTo s i s' := by
  obtain rfl | ⟨r, t, hr, hfree, hafter⟩ := withLock_next_of_ignoresLock hb h
  · exact changesTo_same (.refl _)
  · exact hbody r t hr hfree hafter

theorem execNop_changes {c : Nat} {s s' : State} (h : execNop c s = .next s') :
    ChangesTo s (.nop c) s' :=
  onPort_changes h fun _ _ _ hb => by
    cases hb
    exact changesTo_same (.respond _ _ _ _ _)

theorem execPeek_changes {c : Nat} {id : U64} {s s' : State} (h : execPeek c id s = .next s') :
    ChangesTo s (.peek c id) s' :=
  onPort_changes h fun _ _ _ hb => withLock_changes (ignoresLock_peekMatching _) hb
    fun r t hr hfree hafter => by
      obtain ⟨rfl, -⟩ := peekMatching_ok _ _ _ _ hr
      cases hafter
      cases r <;> exact changesTo_same (.answered hfree _ _ _ _)

theorem execPopAt_changes {c : Nat} {a : U64} {s s' : State} (h : execPopAt c a s = .next s') :
    ChangesTo s (.popAt c a) s' :=
  onPort_changes h fun _ _ _ hb => withLock_changes (ignoresLock_popAtPos _) hb
    fun r t hr hfree hafter => by
      cases hafter
      cases r with
      | some f => exact ⟨t, .popAt hr, (.answered hfree _ _ _ _)⟩
      | none =>
        obtain ⟨-, -, rfl⟩ | ⟨-, f, s1, -, -, hf, -⟩ := popAtPos_ok _ _ _ _ hr
        · exact changesTo_same (.answered hfree _ _ _ _)
        · cases hf

theorem execClear_changes {c : Nat} {s s' : State} (h : execClear c s = .next s') :
    ChangesTo s (.clear c) s' :=
  onPort_changes h fun _ _ _ hb => withLock_changes ignoresLock_clear hb
    fun r t hr hfree hafter => by
      cases hr
      cases hafter
      exact ⟨_, .clear c, (.answered hfree _ _ _ _)⟩

theorem execStatus_changes {c : Nat} {s s' : State} (h : execStatus c s = .next s') :
    ChangesTo s (.status c) s' :=
  onPort_changes h fun _ _ _ hb => withLock_changes ignoresLock_status hb
    fun r t hr hfree hafter => by
      cases hr
      cases hafter
      exact changesTo_same (.answered hfree _ _ _ _)

theorem execWaitFor_changes {c : Nat} {id : U64} {tm : U32} {s s' : State}
    (h : execWaitFor c id tm s = .next s') : ChangesTo s (.waitFor c id tm) s' :=
  onPort_changes h fun _ hw hidle hb => by
    cases hb
    exact ⟨_, .startWait _ (beq_self_eq_true c) hw hidle rfl, .refl _⟩

theorem execWaitForever_changes {c : Nat} {id : U64} {s s' : State}
    (h : execWaitForever c id s = .next s') : ChangesTo s (.waitForever c id) s' :=
  onPort_changes h fun _ hw hidle hb => by
    cases hb
    exact ⟨_, .startWait _ (beq_self_eq_true c) hw hidle rfl, .drawNext _⟩

theorem execSend_changes {c : Nat} {f : Frame} {s s' : State} (h : execSend c f s = .next s') :
    ChangesTo s (.send c f) s' :=
  onPort_changes h fun _ _ _ hb => by
    obtain ⟨hwf, hb⟩ := withFrame_next _ _ _ _ hb
    refine withLock_changes (ignoresLock_send f) hb fun r t hr hfree hafter => ?_
    cases hafter
    unfold sendBody at hr
    split_ifs at hr with hon
    · cases hr
      exact changesTo_same ((SameRegisters.emit _ s).trans (.answered hfree _ _ _ _))
    · cases hr
      exact ⟨_, .defer hwf (by simpa using hon), (.answered hfree _ _ _ _)⟩

theorem reportOverflow_same (b : Bool) (s : State) : SameRegisters s (reportOverflow b s) := by
  cases b
  · exact .emit _ _
  · exact .refl _

theorem execRxFrame_changes {f : Frame} {s s' : State} (h : execRxFrame f s = .next s') :
    ChangesTo s (.rxFrame f) s' := by
  obtain ⟨-, rfl⟩ | ⟨hon, hb⟩ := onProducer_next _ _ _ h
  · exact changesTo_same (.refl _)
  obtain ⟨hwf, hb⟩ := withFrame_next _ _ _ _ hb
  refine withLock_changes (ignoresLock_push f) hb fun b t hr hfree hafter => ?_
  cases hafter
  exact ⟨t, .rxFrame hwf hon hr, .trans (.lockRelease hfree) (reportOverflow_same b _)⟩

theorem execRxError_changes {s s' : State} (h : execRxError s = .next s') : ChangesTo s .rxError s' := by
  obtain ⟨-, rfl⟩ | ⟨hon, hb⟩ := onProducer_next _ _ _ h
  · exact changesTo_same (.refl _)
  refine withLock_changes ignoresLock_goOffline hb fun r t hr hfree hafter => ?_
  cases hr
  cases hafter
  exact ⟨_, .rxError hon, .lockRelease hfree⟩

theorem execKnop_changes {s s' : State} (h : execKnop s = .next s') : ChangesTo s .knop s' := by
  obtain ⟨-, rfl⟩ | ⟨-, hb⟩ := onController_next _ _ _ h
  · exact changesTo_same (.refl _)
  · cases hb
    exact changesTo_same (.emit _ _)

theorem kReady_iff {s : State} : kReady s = true ↔ s.kCross = .idle := by
  unfold kReady kReq kAck
  cases s.kCross <;> simp

/-- The handshake of RECONNECT begins idle and ends idle, so its phases leave no trace (rule R132). -/
theorem kFinish_same {t : State} (hidle : t.kCross = .idle) (hfree : t.lock = .free) (k : KCross)
    (st : Status) : SameRegisters t (kFinish st (kDrop st (lockRelease { t with kCross := k }))) := by
  have hdone : kFinish st (kDrop st (lockRelease { t with kCross := k })) =
      kRespond st (lockRelease t) := by
    unfold kFinish kDrop lockRelease
    rw [← hidle]
  rw [hdone]
  exact .trans (.lockRelease hfree) (.emit _ _)

theorem goOnline_kCross (h : U64) (s : State) : (goOnline h s).kCross = s.kCross := by rw [goOnline_eq]

theorem execReconnect_changes {h : U64} {s s' : State} (hx : execReconnect h s = .next s') :
    ChangesTo s (.reconnect h) s' := by
  obtain ⟨-, rfl⟩ | ⟨hready, hb⟩ := onController_next _ _ _ hx
  · exact changesTo_same (.refl _)
  have hidle := kReady_iff.1 hready
  split_ifs at hb with hfits
  · refine withLock_changes (ignoresLock_reconnect h) hb fun r t hr hfree hafter => ?_
    cases hafter
    cases hon : s.online with
    | true =>
      rw [kPerform_online hon] at hr
      cases hr
      exact changesTo_same (kFinish_same hidle hfree _ _)
    | false =>
      rw [kPerform_offline hon] at hr
      cases hr
      exact ⟨_, .reconnect hfits hon,
        kFinish_same ((goOnline_kCross h s).trans hidle) hfree _ _⟩
  · cases hb
    exact changesTo_same (.emit _ _)

/-- Everything an operation can do to the registers when it answers a next state. -/
theorem exec_changes {i : Instr} {s s' : State} (h : exec i s = .next s') : ChangesTo s i s' := by
  cases i with
  | nop c => exact execNop_changes h
  | peek c id => exact execPeek_changes h
  | popAt c a => exact execPopAt_changes h
  | clear c => exact execClear_changes h
  | waitFor c id tm => exact execWaitFor_changes h
  | waitForever c id => exact execWaitForever_changes h
  | send c f => exact execSend_changes h
  | status c => exact execStatus_changes h
  | rxFrame f => exact execRxFrame_changes h
  | rxError => exact execRxError_changes h
  | knop => exact execKnop_changes h
  | reconnect h' => exact execReconnect_changes h

/-! ## One micro-step -/

/-- The register changes a micro-step of consumer `c` can make. A waiter with nothing to do and a held lock
are `unchanged`. -/
inductive MicroChange (s : State) (c : Nat) : State → Prop
  | unchanged : MicroChange s c s
  /-- W_SCAN with a match (rule R101). -/
  | found {w : Waiter} {f : Frame} {t : State} : s.waiters[c]? = some w → w.phase = .scan →
      scanBody w.wantId s = .ok (some f, t) → MicroChange s c (setWaiter c { w with phase := .idle } t)
  /-- W_SCAN without a match, W_CHECK and W_WAKE (rules R101 to R103): the wait goes to its next phase. -/
  | nextPhase {w : Waiter} (ph : Phase) (n : Nat) : s.waiters[c]? = some w → w.phase ≠ .idle →
      MicroChange s c (setWaiter c { w with phase := ph, slept := n } s)

/-- A scan that hands over no frame has changed nothing (rule R101). -/
theorem scanBody_none {id : U64} {s t : State} (h : scanBody id s = .ok (none, t)) : t = s := by
  unfold scanBody at h
  split at h
  · cases h
  · rename_i s1 hs1
    cases h
    exact (peekMatching_ok _ _ _ _ hs1).1
  · rename_i i s1 hs1
    obtain ⟨rfl, -⟩ := peekMatching_ok _ _ _ _ hs1
    obtain ⟨-, -, rfl⟩ | ⟨-, f, s2, -, -, hf, -⟩ := popAtPos_ok _ _ _ _ h
    · rfl
    · cases hf

/-- A scan that hands over a frame has removed it by POP_AT (rule R101). -/
theorem scanBody_some {id : U64} {s t : State} {f : Frame} (h : scanBody id s = .ok (some f, t)) :
    ∃ i, popAtPos i s = .ok (some f, t) := by
  unfold scanBody at h
  split at h
  · cases h
  · cases h
  · rename_i i s1 hs1
    obtain ⟨rfl, -⟩ := peekMatching_ok _ _ _ _ hs1
    exact ⟨i, h⟩

theorem wScan_changes {c : Nat} {w : Waiter} {s s' : State} (hw : s.waiters[c]? = some w)
    (hscan : w.phase = .scan) (h : wScan c w s = .next s') :
    ∃ t, MicroChange s c t ∧ SameRegisters t s' := by
  obtain rfl | ⟨r, t, hr, hfree, hafter⟩ := withLock_next_of_ignoresLock (ignoresLock_scanBody _) h
  · exact ⟨_, .unchanged, .refl _⟩
  cases hafter
  cases r with
  | some f =>
    exact ⟨_, .found hw hscan hr, (SameRegisters.answered hfree _ _ _ _).setWaiter _ _⟩
  | none =>
    obtain rfl := scanBody_none hr
    exact ⟨_, .nextPhase .check w.slept hw (by rw [hscan]; decide),
      (SameRegisters.lockRelease hfree).setWaiter _ _⟩

theorem wCheck_changes {c : Nat} {w : Waiter} {s s' : State} (hw : s.waiters[c]? = some w)
    (hcheck : w.phase = .check) (h : wCheck c w s = .next s') :
    ∃ t, MicroChange s c t ∧ SameRegisters t s' := by
  have hbusy : w.phase ≠ .idle := by rw [hcheck]; decide
  unfold wCheck at h
  split_ifs at h
  · cases h
    exact ⟨_, .nextPhase .idle w.slept hw hbusy, (SameRegisters.respond _ _ _ _ s).setWaiter _ _⟩
  · cases h
    exact ⟨_, .nextPhase .sleep w.slept hw hbusy, .refl _⟩

theorem wWake_changes {c : Nat} {w : Waiter} {s s' : State} (hw : s.waiters[c]? = some w)
    (hsleep : w.phase = .sleep) (h : wWake c w s = .next s') :
    ∃ t, MicroChange s c t ∧ SameRegisters t s' := by
  cases h
  exact ⟨_, .nextPhase .scan (sleepDraw s) hw (by rw [hsleep]; decide), .drawNext _⟩

/-- Everything a micro-step can do to the registers when it answers a next state. -/
theorem microStep_changes {c : Nat} {s s' : State} (h : microStep c s = .next s') :
    ∃ t, MicroChange s c t ∧ SameRegisters t s' := by
  unfold microStep at h
  split at h
  · cases h
  · rename_i w hw
    split at h
    · cases h
      exact ⟨_, .unchanged, .refl _⟩
    · rename_i hscan
      exact wScan_changes hw hscan h
    · rename_i hcheck
      exact wCheck_changes hw hcheck h
    · rename_i hsleep
      exact wWake_changes hw hsleep h

/-! ## One step -/

theorem answerIllegal_same {w : PortWords} {e : DecodeError} {s s' : State}
    (h : answerIllegal w e s = .next s') : SameRegisters s s' :=
  ⟨s.lockCross, s'.out, s.draws, answerIllegal_next w e s s' h, .inl rfl⟩

/-- The register changes a turn can make, from the state `s` in which its agent steps: none, those of the
operation its words decode to, or those of a micro-step. -/
def TurnChange (t : Turn) (s u : State) : Prop :=
  u = s ∨ (∃ i, presents s t i ∧ OpChange s i u) ∨ ∃ c, MicroChange s c u

/-- Everything a step with a turn to take can do to the registers, a reset aside. -/
theorem step_changes {s s' : State} {t : Turn} {rest : List Turn} (hin : s.inputs = t :: rest)
    (hact : t.act ≠ .reset) (h : step s = .next s') :
    ∃ u, TurnChange t (beginTurn t rest s) u ∧ SameRegisters u s' := by
  rw [step_of_turn hin] at h
  cases ht : t.act with
  | reset => exact absurd ht hact
  | micro c =>
    rw [ht] at h
    obtain ⟨u, hu, hsame⟩ := microStep_changes h
    exact ⟨u, .inr (.inr ⟨c, hu⟩), hsame⟩
  | present w =>
    rw [ht] at h
    obtain ⟨i, hdec, hexec⟩ | ⟨e, -, hillegal⟩ := stepPresent_next w _ _ h
    · obtain ⟨u, hu, hsame⟩ := exec_changes hexec
      exact ⟨u, .inr (.inl ⟨i, ⟨w, ht, hdec⟩, hu⟩), hsame⟩
    · exact ⟨_, .inl rfl, answerIllegal_same hillegal⟩

/-! ## What the changes leave alone -/

/-- POP_AT writes slots and `tail` alone (rule R82). -/
theorem popAtPos_frame {i : Nat} {s t : State} {r : Option Frame} (h : popAtPos i s = .ok (r, t)) :
    ∃ m k, t = { s with slots := m, tail := k } := by
  obtain ⟨-, -, rfl⟩ | ⟨-, f, s1, -, -, -, rfl⟩ := popAtPos_ok _ _ _ _ h <;> exact ⟨_, _, rfl⟩

/-- PUSH writes slots, `head` and `tail` alone (rule R80). -/
theorem push_frame {f : Frame} {s t : State} {b : Bool} (h : push f s = .ok (b, t)) :
    ∃ m k, t = { s with slots := m, head := ptrInc s.params s.head, tail := k } := by
  obtain ⟨-, -, rfl⟩ := pushWire_ok _ _ _ _ h
  exact ⟨_, _, rfl⟩

/-- A micro-step writes slots, `tail` and waiter contexts alone (rule R28). -/
theorem MicroChange.frame {s u : State} {c : Nat} (h : MicroChange s c u) :
    ∃ m k ws, u = { s with slots := m, tail := k, waiters := ws } := by
  cases h with
  | unchanged => exact ⟨_, _, _, rfl⟩
  | nextPhase => exact ⟨_, _, _, rfl⟩
  | found _ _ hscan =>
    obtain ⟨i, hpop⟩ := scanBody_some hscan
    obtain ⟨m, k, rfl⟩ := popAtPos_frame hpop
    exact ⟨_, _, _, rfl⟩

/-- `head` moves only by RX_FRAME while online (rules R12, R28). -/
theorem OpChange.head {s u : State} {i : Instr} (h : OpChange s i u) :
    u.head = s.head ∨ (u.head = ptrInc s.params s.head ∧ s.online = true ∧ ∃ f, i = .rxFrame f) := by
  cases h with
  | unchanged | clear | startWait | defer | rxError => exact .inl rfl
  | reconnect => exact .inl (by rw [goOnline_eq])
  | popAt hpop =>
    obtain ⟨m, k, rfl⟩ := popAtPos_frame hpop
    exact .inl rfl
  | rxFrame _ hon hpush =>
    obtain ⟨m, k, rfl⟩ := push_frame hpush
    exact .inr ⟨rfl, hon, _, rfl⟩

/-- `online` is written only by RX_ERROR, which clears it, and RECONNECT, which sets it with the new handle
(rule R16). -/
theorem OpChange.online {s u : State} {i : Instr} (h : OpChange s i u) :
    u.online = s.online ∨ (i = .rxError ∧ u.online = false) ∨
      ∃ k, i = .reconnect k ∧ u.online = true ∧ u.xport = k := by
  cases h with
  | unchanged | clear | startWait | defer => exact .inl rfl
  | popAt hpop =>
    obtain ⟨m, k, rfl⟩ := popAtPos_frame hpop
    exact .inl rfl
  | rxFrame _ _ hpush =>
    obtain ⟨m, k, rfl⟩ := push_frame hpush
    exact .inl rfl
  | rxError => exact .inr (.inl ⟨rfl, rfl⟩)
  | reconnect => exact .inr (.inr ⟨_, rfl, by rw [goOnline_eq], by rw [goOnline_eq]⟩)

/-- `pending_frame` is written only by SEND while offline, `pending_valid` only by that and by RECONNECT while
offline, which clears it (rule R17). -/
theorem OpChange.pending {s u : State} {i : Instr} (h : OpChange s i u) :
    (u.pendingFrame = s.pendingFrame ∧ u.pendingValid = s.pendingValid) ∨
    (s.online = false ∧ ∃ c f, i = .send c f ∧ u.pendingFrame = f.enc ∧ u.pendingValid = true) ∨
    (s.online = false ∧ ∃ k, i = .reconnect k ∧ u.pendingFrame = s.pendingFrame ∧
      u.pendingValid = false) := by
  cases h with
  | unchanged | clear | startWait | rxError => exact .inl ⟨rfl, rfl⟩
  | popAt hpop =>
    obtain ⟨m, k, rfl⟩ := popAtPos_frame hpop
    exact .inl ⟨rfl, rfl⟩
  | rxFrame _ _ hpush =>
    obtain ⟨m, k, rfl⟩ := push_frame hpush
    exact .inl ⟨rfl, rfl⟩
  | defer _ hoff => exact .inr (.inl ⟨hoff, _, _, rfl, rfl, rfl⟩)
  | reconnect _ hoff =>
    exact .inr (.inr ⟨hoff, _, rfl, by rw [goOnline_eq], by rw [goOnline_eq]⟩)

/-- No operation writes the clock (rule R25). -/
theorem OpChange.now {s u : State} {i : Instr} (h : OpChange s i u) : u.now = s.now := by
  cases h with
  | unchanged | clear | startWait | defer | rxError => rfl
  | reconnect => rw [goOnline_eq]
  | popAt hpop =>
    obtain ⟨m, k, rfl⟩ := popAtPos_frame hpop
    rfl
  | rxFrame _ _ hpush =>
    obtain ⟨m, k, rfl⟩ := push_frame hpush
    rfl

theorem MicroChange.connection {s u : State} {c : Nat} (h : MicroChange s c u) :
    u.head = s.head ∧ u.online = s.online ∧ u.pendingFrame = s.pendingFrame ∧
      u.pendingValid = s.pendingValid ∧ u.now = s.now := by
  obtain ⟨m, k, ws, rfl⟩ := h.frame
  exact ⟨rfl, rfl, rfl, rfl, rfl⟩

/-! ## Who writes what -/

/-- The operation of a turn presented, or a change that leaves the registers of the connection alone. -/
theorem TurnChange.cases_of_op {t : Turn} {s u : State} (h : TurnChange t s u) :
    (∃ i, presents s t i ∧ OpChange s i u) ∨
    (u.head = s.head ∧ u.online = s.online ∧ u.pendingFrame = s.pendingFrame ∧
      u.pendingValid = s.pendingValid ∧ u.now = s.now) := by
  obtain rfl | hop | ⟨c, hmicro⟩ := h
  · exact .inr ⟨rfl, rfl, rfl, rfl, rfl⟩
  · exact .inl hop
  · exact .inr hmicro.connection

/-- Settles O48: of the changes a turn can make only that of RX_FRAME reaches `head`. -/
theorem onlyTheProducerMovesHead : Obligations.OnlyTheProducerMovesHead := by
  intro s s' t rest hin hact hstep hmoved
  obtain ⟨u, hu, hsame⟩ := step_changes hin hact hstep
  rw [hsame.head] at hmoved ⊢
  obtain ⟨i, hpres, hop⟩ | ⟨hhead, -⟩ := hu.cases_of_op
  · obtain hkept | ⟨hinc, hon, f, rfl⟩ := hop.head
    · exact absurd hkept hmoved
    · exact ⟨hinc, hon, f, hpres⟩
  · exact absurd hhead hmoved

/-- Settles O49, by which operation's change reaches `online`. -/
theorem onlyRxErrorAndReconnectWriteOnline : Obligations.OnlyRxErrorAndReconnectWriteOnline := by
  intro s s' t rest hin hact hstep
  obtain ⟨u, hu, hsame⟩ := step_changes hin hact hstep
  rw [hsame.online, hsame.xport]
  obtain ⟨i, hpres, hop⟩ | ⟨-, hkept, -⟩ := hu.cases_of_op
  · obtain hkept | ⟨rfl, hoff⟩ | ⟨k, rfl, hon, hk⟩ := hop.online
    · rw [hkept]
      simp +contextual
    · exact ⟨fun _ _ => hpres, fun _ hon => by simp [hoff] at hon⟩
    · exact ⟨fun _ hoff => by simp [hon] at hoff, fun _ _ => ⟨k, hpres, hk⟩⟩
  · rw [hkept]
    simp +contextual

/-- Settles O50, by which operation's change reaches `pending_frame` and `pending_valid`. -/
theorem onlySendAndReconnectWritePendingFrame : Obligations.OnlySendAndReconnectWritePendingFrame := by
  intro s s' t rest hin hact hstep
  obtain ⟨u, hu, hsame⟩ := step_changes hin hact hstep
  rw [hsame.pendingFrame, hsame.pendingValid]
  obtain ⟨i, hpres, hop⟩ | ⟨-, -, hframe, hvalid, -⟩ := hu.cases_of_op
  · obtain ⟨hframe, hvalid⟩ | ⟨hoff, c, f, rfl, hframe, hvalid⟩ | ⟨hoff, k, rfl, hframe, hvalid⟩ := hop.pending
    · rw [hframe, hvalid]
      simp +contextual
    · exact ⟨fun _ => ⟨hoff, c, f, hpres, hframe, hvalid⟩, fun _ hcleared => by simp [hvalid] at hcleared⟩
    · refine ⟨fun hwritten => ?_, fun _ _ => ⟨hoff, k, hpres⟩⟩
      rw [hframe, hvalid] at hwritten
      simp at hwritten
  · rw [hframe, hvalid]
    simp +contextual

/-! ## The clock -/

theorem le_clockRead (last presented : U64) : last ≤ clockRead last presented := by
  unfold clockRead
  split_ifs with h
  · exact BitVec.le_refl _
  · exact BitVec.not_lt.1 h

/-- A turn reads the clock when it is taken, and nothing writes it after that (rule R25). -/
theorem step_now {s s' : State} {t : Turn} {rest : List Turn} (hin : s.inputs = t :: rest)
    (h : step s = .next s') : s'.now = clockRead s.now t.clock := by
  by_cases hact : t.act = .reset
  · rw [step_of_turn hin, hact] at h
    cases h
    rfl
  · obtain ⟨u, hu, hsame⟩ := step_changes hin hact h
    rw [hsame.now]
    obtain ⟨i, -, hop⟩ | ⟨-, -, -, -, hnow⟩ := hu.cases_of_op
    · exact hop.now
    · exact hnow

/-- Settles O19: an idle step keeps the clock, every other reads one that is no less. -/
theorem clockNeverGoesBack : Obligations.ClockNeverGoesBack := by
  intro s s' hstep
  obtain ⟨-, rfl⟩ | ⟨t, rest, hin, -⟩ := step_next s s' hstep
  · exact BitVec.le_refl _
  · rw [step_now hin hstep]
    exact le_clockRead _ _

/-! ## A port in the middle of a wait -/

theorem cReady_iff {s : State} {c : Nat} : cReady s c = true ↔ phaseOf s c = some .idle := by
  unfold cReady phaseOf
  cases s.waiters[c]? <;> simp

/-- Settles O55: every operation of a consumer port asks the port first. -/
theorem busyPortAcceptsNothing : Obligations.BusyPortAcceptsNothing := by
  refine fun s c => ⟨cReady_iff, fun i w hi hw hbusy => ?_⟩
  obtain ⟨body, hexec⟩ := exec_eq_onPort hi s
  rw [hexec, onPort_busy c s w body hw hbusy]

end Sys2Proof.Machine
end

section
/-! The decoder answers well-formed operations, and every step keeps the invariant
(`spec/10_state.md` section 10, rule R32). -/

namespace Sys2Proof

/-! ## Decoded operations are well formed -/

/-- A frame taken from a bus has the fixed size (rules R10, R63). -/
theorem busFrame_wf (p : Params) (bus : Nat) : (busFrame p bus).WF p := by
  show ((leBytes p.frameBytes bus).drop 32).length = p.payloadMax
  rw [List.length_drop, leBytes_length, Params.frameBytes]
  omega

theorem decodeOp_wf {p : Params} {c : Nat} {req : BitVec 104} {wdata : Nat} {i : Instr}
    (hc : c < p.numConsumers) (h : decodeOp p c req wdata = .ok i) : i.wf p = true := by
  unfold decodeOp at h
  split at h
  case h_1 | h_2 | h_3 | h_4 | h_5 | h_6 | h_8 =>
    cases h
    exact decide_eq_true hc
  case h_7 =>
    cases h
    exact Bool.and_eq_true_iff.2 ⟨decide_eq_true hc, decide_eq_true (busFrame_wf p wdata)⟩
  case h_9 => cases h

theorem decodeConsumer_wf {p : Params} {c : Nat} {req : BitVec 104} {wdata : Nat} {i : Instr}
    (h : decodeConsumer p c req wdata = .ok i) : i.wf p = true := by
  unfold decodeConsumer at h
  split_ifs at h with hc hrsv
  · exact decodeOp_wf hc h

theorem decodeProducer_wf {p : Params} {ev : BitVec 2} {data : Nat} {i : Instr}
    (h : decodeProducer p ev data = .ok i) : i.wf p = true := by
  unfold decodeProducer at h
  split at h
  · cases h
    exact decide_eq_true (busFrame_wf p data)
  · cases h
    rfl
  · cases h
  · cases h

theorem decodeController_wf {p : Params} {req : BitVec 66} {i : Instr}
    (h : decodeController p req = .ok i) : i.wf p = true := by
  unfold decodeController at h
  split at h
  · cases h
    rfl
  · split_ifs at h with hfits
    cases h
    exact decide_eq_true hfits
  · cases h

/-- Settles O2, port by port. -/
theorem decodedOperationsAreWellFormed : Obligations.DecodedOperationsAreWellFormed := by
  intro p w i h
  cases w with
  | consumer c req wdata => exact decodeConsumer_wf h
  | producer ev data => exact decodeProducer_wf h
  | controller req => exact decodeController_wf h

end Sys2Proof

namespace Sys2Proof.Machine

open Sys2Proof

/-! ## Which slots can be read -/

/-- Slot `k` lies in the slot space and all its bytes have been written (rule R30). -/
def Readable (s : State) (k : Nat) : Prop := ∃ bs, slotRead s k = .ok bs

theorem pendingAt_isOk_iff {s : State} {i : Nat} :
    (pendingAt s i).isOk = true ↔ Readable s (pendingSlot s i) := by
  unfold pendingAt Readable
  cases slotRead s (pendingSlot s i) <;> simp [Except.isOk, Except.toBool]

/-- A slot write makes its slot readable and keeps readable what was. -/
theorem readable_slotWrite {s t : State} {k j : Nat} {bs : List Byte}
    (hlen : bs.length = s.params.frameBytes) (h : slotWrite s k bs = .ok t)
    (hj : j = k ∨ Readable s j) : Readable t j := by
  unfold Readable
  rw [slotRead_slotWrite s t k j bs hlen h]
  by_cases hjk : j = k
  · exact ⟨bs, if_pos hjk⟩
  · rw [if_neg hjk]
    exact hj.resolve_left hjk

/-- The listed bytes are in canonical form and inside the slot space (rule R40). -/
structure SlotsOk (s : State) : Prop where
  wf : Memory.wf s.slots
  inside : ∀ x ∈ s.slots, x.1 < s.params.slotSpace

theorem slotsOk_slotWrite {s t : State} {k : Nat} {bs : List Byte} (h : slotWrite s k bs = .ok t)
    (hs : SlotsOk s) : SlotsOk t := by
  refine ⟨slotWrite_wf s t k bs h hs.wf, fun x hx => ?_⟩
  obtain ⟨hin, rfl⟩ := (slotWrite_ok s t k bs).1 h
  obtain ⟨-, hlt⟩ | hold := Memory.mem_writeBytes bs s.slots _ x hx
  · exact Nat.lt_of_lt_of_le hlt hin
  · exact hs.inside x hold

/-- The shift of POP_AT copies readable slots, so none stops being readable (rule R82). -/
theorem shiftOlder_keeps {i : Nat} {s t : State} (h : shiftOlder s i = .ok t) (hs : SlotsOk s) :
    SlotsOk t ∧ ∀ k, Readable s k → Readable t k := by
  induction i generalizing s with
  | zero =>
    cases h
    exact ⟨hs, fun _ hk => hk⟩
  | succ j ih =>
    unfold shiftOlder at h
    split at h
    · cases h
    · rename_i bs hread
      split at h
      · cases h
      · rename_i s1 hwrite
        obtain ⟨hok, hkeeps⟩ := ih h (slotsOk_slotWrite hwrite hs)
        exact ⟨hok, fun k hk =>
          hkeeps k (readable_slotWrite (slotRead_length _ _ _ hread) hwrite (.inr hk))⟩

/-! ## The ring part of the invariant -/

/-- The part of the invariant that speaks of the ring: parameters, slots, `head` and `tail`. -/
structure RingInv (s : State) : Prop where
  sizePos : 1 ≤ s.params.cmdBufferSize
  headLt : s.head < s.params.ptrMod
  tailLt : s.tail < s.params.ptrMod
  countLe : s.count ≤ s.params.cmdBufferSize
  slotsOk : SlotsOk s
  written : ∀ i, i < s.count → Readable s (pendingSlot s i)

theorem Inv.ring {s : State} (h : Inv s) : RingInv s where
  sizePos := h.paramsValid.1
  headLt := h.headLt
  tailLt := h.tailLt
  countLe := h.countLe
  slotsOk := ⟨h.slotsWf, h.slotsInside⟩
  written i hi := pendingAt_isOk_iff.1 (h.pendingWritten i hi)

/-- A change of slots, `head` and `tail` keeps the invariant where it keeps the ring part. -/
theorem Inv.of_ring {s : State} (hs : Inv s) {m : Memory} {h t : Nat}
    (hring : RingInv { s with slots := m, head := h, tail := t }) :
    Inv { s with slots := m, head := h, tail := t } :=
  { hs with
    headLt := hring.headLt
    tailLt := hring.tailLt
    countLe := hring.countLe
    slotsWf := hring.slotsOk.wf
    slotsInside := hring.slotsOk.inside
    pendingWritten := fun i hi => pendingAt_isOk_iff.2 (hring.written i hi) }

/-- `head` is `count` positions after `tail`. -/
theorem RingInv.head_eq {s : State} (h : RingInv s) : ptrAdd s.params s.tail s.count = s.head :=
  ptrAdd_ptrCount h.headLt h.tailLt

/-- The first position that is not pending is in the slot that PUSH writes next (rules R13, R80). -/
theorem RingInv.pendingSlot_count {s : State} (h : RingInv s) :
    pendingSlot s s.count = ptrSlot s.params s.head := by
  unfold pendingSlot
  rw [h.head_eq]

/-- The number of pending frames, from where `head` is counted from `tail`. -/
theorem count_of_head {s : State} {k : Nat} (htail : s.tail < s.params.ptrMod) (hk : k < s.params.ptrMod)
    (hhead : s.head = ptrAdd s.params s.tail k) : s.count = k := by
  unfold State.count
  rw [hhead, ptrCount_ptrAdd htail hk]

/-- After one removal every position is the next one of before (rules R13, R82). -/
theorem pendingSlot_succ {s t : State} (hparams : t.params = s.params) (htail : s.tail < s.params.ptrMod)
    (ht : t.tail = ptrInc s.params s.tail) (i : Nat) : pendingSlot t i = pendingSlot s (i + 1) := by
  unfold pendingSlot
  rw [hparams, ht, ptrAdd_ptrInc htail]

theorem RingInv.count_remove {s t : State} (h : RingInv s) (hpos : 0 < s.count)
    (hparams : t.params = s.params) (hhead : t.head = s.head)
    (htail : t.tail = ptrInc s.params s.tail) : t.count = s.count - 1 := by
  have hle := h.countLe
  refine count_of_head ?_ ?_ ?_
  · rw [htail, hparams]
    exact ptrInc_lt h.tailLt
  · rw [hparams]
    unfold Params.ptrMod
    omega
  · rw [hhead, hparams, htail, ptrAdd_ptrInc h.tailLt, Nat.sub_add_cancel hpos, h.head_eq]

/-- A removal at the tail, in a memory where no slot stopped being readable. -/
theorem RingInv.remove {s t : State} (h : RingInv s) (hpos : 0 < s.count) (hparams : t.params = s.params)
    (hhead : t.head = s.head) (htail : t.tail = ptrInc s.params s.tail) (hslots : SlotsOk t)
    (hkeeps : ∀ k, Readable s k → Readable t k) : RingInv t := by
  have hcount := h.count_remove hpos hparams hhead htail
  have hle := h.countLe
  refine ⟨by rw [hparams]; exact h.sizePos, by rw [hhead, hparams]; exact h.headLt,
    by rw [htail, hparams]; exact ptrInc_lt h.tailLt, by rw [hcount, hparams]; omega, hslots, ?_⟩
  intro i hi
  rw [pendingSlot_succ hparams h.tailLt htail]
  exact hkeeps _ (h.written (i + 1) (by omega))

/-- An addition at the head of a ring with room, in a memory where the slot written is readable. -/
theorem RingInv.append {s t : State} (h : RingInv s) (hroom : s.count < s.params.cmdBufferSize)
    (hparams : t.params = s.params) (hhead : t.head = ptrInc s.params s.head) (htail : t.tail = s.tail)
    (hslots : SlotsOk t)
    (hkeeps : ∀ k, k = ptrSlot s.params s.head ∨ Readable s k → Readable t k) : RingInv t := by
  have hcount : t.count = s.count + 1 := by
    refine count_of_head (by rw [htail, hparams]; exact h.tailLt) ?_ ?_
    · rw [hparams]
      unfold Params.ptrMod
      omega
    · rw [hhead, htail, hparams, ptrAdd_succ h.sizePos, h.head_eq]
  refine ⟨by rw [hparams]; exact h.sizePos, by rw [hhead, hparams]; exact ptrInc_lt h.headLt,
    by rw [htail, hparams]; exact h.tailLt, by rw [hcount, hparams]; exact hroom, hslots, ?_⟩
  intro i hi
  have hsame : pendingSlot t i = pendingSlot s i := by
    unfold pendingSlot
    rw [hparams, htail]
  rw [hsame]
  rcases Nat.lt_or_ge i s.count with hold | hnew
  · exact hkeeps _ (.inr (h.written i hold))
  · obtain rfl : i = s.count := by omega
    exact hkeeps _ (.inl h.pendingSlot_count)

/-- The ring without its oldest frame, whose slot a PUSH into a full ring writes (rule R80). -/
def dropOldest (s : State) : State := { s with tail := ptrInc s.params s.tail }

theorem RingInv.dropOldest {s : State} (h : RingInv s) (hpos : 0 < s.count) : RingInv (dropOldest s) :=
  h.remove hpos rfl rfl rfl ⟨h.slotsOk.wf, h.slotsOk.inside⟩ fun _ hk => hk

/-- PUSH keeps the ring part: it adds a frame at the head, and where the ring is full the oldest frame has
left first (rule R80). -/
theorem ringInv_push {f : Frame} {s t : State} {b : Bool} (hf : f.WF s.params) (h : push f s = .ok (b, t))
    (hs : RingInv s) : RingInv t := by
  obtain ⟨-, hin, rfl⟩ := pushWire_ok _ _ _ _ h
  have hwrite := (slotWrite_ok s _ (ptrSlot s.params s.head) f.enc).2 ⟨hin, rfl⟩
  have hslots := slotsOk_slotWrite hwrite hs.slotsOk
  have hkeeps := fun k => readable_slotWrite (j := k) (enc_length_of_wf s.params f hf) hwrite
  have hle := hs.countLe
  by_cases hfull : s.count = s.params.cmdBufferSize
  · have hflag : s.full = true := decide_eq_true hfull
    have hpos : 0 < s.count := by
      rw [hfull]
      exact hs.sizePos
    have hcount : (dropOldest s).count = s.count - 1 := hs.count_remove hpos rfl rfl rfl
    have hroom : (dropOldest s).count < s.params.cmdBufferSize := by omega
    exact (hs.dropOldest hpos).append hroom rfl rfl (by rw [hflag]; rfl) ⟨hslots.wf, hslots.inside⟩ hkeeps
  · have hflag : s.full = false := decide_eq_false hfull
    exact hs.append (by omega) rfl rfl (by rw [hflag]; rfl) ⟨hslots.wf, hslots.inside⟩ hkeeps

/-- POP_AT keeps the ring part: the shift leaves every slot readable, then the tail moves on (rule R82). -/
theorem ringInv_popAtPos {i : Nat} {s t : State} {r : Option Frame} (h : popAtPos i s = .ok (r, t))
    (hs : RingInv s) : RingInv t := by
  obtain ⟨-, -, rfl⟩ | ⟨hi, f, s1, -, hshift, -, rfl⟩ := popAtPos_ok _ _ _ _ h
  · exact hs
  · obtain ⟨hok, hkeeps⟩ := shiftOlder_keeps hshift hs.slotsOk
    have hframe := shiftOlder_frame _ _ _ hshift
    rw [hframe] at hok hkeeps
    exact hs.remove (by omega) rfl rfl rfl ⟨hok.wf, hok.inside⟩ hkeeps

/-- CLEAR leaves nothing pending (rule R83). -/
theorem ringInv_clearRing {s : State} (hs : RingInv s) : RingInv (clearRing s) := by
  have hcount : (clearRing s).count = 0 := (count_eq_zero_iff hs.headLt).2 rfl
  refine ⟨hs.sizePos, hs.headLt, hs.headLt, ?_, ⟨hs.slotsOk.wf, hs.slotsOk.inside⟩, ?_⟩
  · rw [hcount]
    exact Nat.zero_le _
  · intro i hi
    rw [hcount] at hi
    exact absurd hi (Nat.not_lt_zero i)

/-! ## The changes keep the invariant -/

theorem inv_of_sameRegisters {s t : State} (h : SameRegisters s t) (hs : Inv s) : Inv t := by
  obtain ⟨x, es, n, rfl, hx⟩ := h
  have hidle : x = .idle := hx.elim (fun hsame => hsame.trans hs.lockCrossIdle) id
  exact { hs with lockCrossIdle := hidle }

theorem inv_popAtPos {i : Nat} {s t : State} {r : Option Frame} (h : popAtPos i s = .ok (r, t))
    (hs : Inv s) : Inv t := by
  have hring := ringInv_popAtPos h hs.ring
  obtain ⟨m, k, rfl⟩ := popAtPos_frame h
  exact hs.of_ring hring

theorem inv_push {f : Frame} {s t : State} {b : Bool} (hf : f.WF s.params) (h : push f s = .ok (b, t))
    (hs : Inv s) : Inv t := by
  have hring := ringInv_push hf h hs.ring
  obtain ⟨m, k, rfl⟩ := push_frame h
  exact hs.of_ring hring

theorem inv_clearRing {s : State} (hs : Inv s) : Inv (clearRing s) :=
  hs.of_ring (ringInv_clearRing hs.ring)

/-- A waiter context that is idle or started in the past may be written (rule R102). -/
theorem inv_setWaiter {c : Nat} {v : Waiter} {s : State} (hv : v.phase ≠ .idle → v.start ≤ s.now)
    (hs : Inv s) : Inv (setWaiter c v s) :=
  { hs with
    waitersLen := (List.length_set).trans hs.waitersLen
    startLe := fun w hw => by
      obtain hold | rfl := List.mem_or_eq_of_mem_set hw
      · exact hs.startLe w hold
      · exact hv }

theorem inv_defer {f : Frame} {s : State} (hf : f.WF s.params) (hoff : s.online = false) (hs : Inv s) :
    Inv { s with pendingFrame := f.enc, pendingValid := true } :=
  { hs with
    onlineEmpty := fun hon => absurd hon (by rw [hoff]; exact Bool.false_ne_true)
    pendingFrameLen := enc_length_of_wf s.params f hf }

theorem inv_goOffline {s : State} (hs : Inv s) : Inv (goOffline s) :=
  { hs with
    onlineEmpty := fun hon => absurd hon Bool.false_ne_true
    onlineWritten := fun hon => absurd hon Bool.false_ne_true }

theorem inv_goOnline {h : U64} {s : State} (hh : handleFits s.params h) (hs : Inv s) :
    Inv (goOnline h s) := by
  rw [goOnline_eq]
  exact { hs with
    onlineEmpty := fun _ => rfl
    xportFits := hh
    onlineWritten := fun _ => rfl }

theorem inv_opChange {i : Instr} {s u : State} (h : OpChange s i u) (hs : Inv s) : Inv u := by
  cases h with
  | unchanged => exact hs
  | popAt hpop => exact inv_popAtPos hpop hs
  | clear => exact inv_clearRing hs
  | startWait v _ _ _ hstart => exact inv_setWaiter (fun _ => hstart ▸ BitVec.le_refl _) hs
  | defer hf hoff => exact inv_defer hf hoff hs
  | rxFrame hf _ hpush => exact inv_push hf hpush hs
  | rxError => exact inv_goOffline hs
  | reconnect hfits => exact inv_goOnline hfits hs

theorem inv_microChange {c : Nat} {s u : State} (h : MicroChange s c u) (hs : Inv s) : Inv u := by
  cases h with
  | unchanged => exact hs
  | found _ _ hscan =>
    obtain ⟨i, hpop⟩ := scanBody_some hscan
    exact inv_setWaiter (fun hbusy => absurd rfl hbusy) (inv_popAtPos hpop hs)
  | nextPhase ph n hw hbusy =>
    have hstart := hs.startLe _ (List.mem_of_getElem? hw) hbusy
    exact inv_setWaiter (fun _ => hstart) hs

/-! ## Every step keeps the invariant -/

theorem inv_idleStep {s : State} (hs : Inv s) : Inv (idleStep s) := { hs with }

/-- Taking a turn moves the clock on, so every wait still started in the past (rule R102). -/
theorem inv_beginTurn {t : Turn} {rest : List Turn} {s : State} (hs : Inv s) : Inv (beginTurn t rest s) :=
  { hs with
    startLe := fun w hw hbusy => BitVec.le_trans (hs.startLe w hw hbusy) (le_clockRead s.now t.clock) }

/-- The reset state satisfies the invariant at every clock value (rules R30, R32). -/
theorem inv_resetBlock {s : State} (hp : s.params.Valid) : Inv (resetBlock s) where
  paramsValid := hp
  headLt := ptrMod_pos hp.1
  tailLt := ptrMod_pos hp.1
  countLe := Nat.zero_le _
  onlineEmpty _ := rfl
  lockFree := rfl
  kCrossIdle := rfl
  lockCrossIdle := rfl
  waitersLen := List.length_replicate
  startLe w hw hbusy := by
    rw [List.eq_of_mem_replicate hw] at hbusy
    exact absurd rfl hbusy
  pendingFrameLen := List.length_replicate
  xportFits := Nat.two_pow_pos _
  onlineWritten hon := absurd hon Bool.false_ne_true
  slotsWf := reset_slots_wf s.params
  slotsInside _ hx := absurd hx List.not_mem_nil
  pendingWritten i hi := absurd hi (Nat.not_lt_zero i)

/-- Settles O14: a turn is taken, and each change of registers it can make keeps the invariant. -/
theorem everyStepKeepsTheInvariant : Obligations.EveryStepKeepsTheInvariant := by
  intro s s' hs hstep
  obtain ⟨-, rfl⟩ | ⟨t, rest, hin, haction⟩ := step_next s s' hstep
  · exact inv_idleStep hs
  have hbegin : Inv (beginTurn t rest s) := inv_beginTurn hs
  by_cases hact : t.act = .reset
  · rw [hact] at haction
    cases haction
    exact inv_resetBlock hbegin.paramsValid
  · obtain ⟨u, hu, hsame⟩ := step_changes hin hact hstep
    refine inv_of_sameRegisters hsame ?_
    obtain rfl | ⟨i, -, hop⟩ | ⟨c, hmicro⟩ := hu
    · exact hbegin
    · exact inv_opChange hop hbegin
    · exact inv_microChange hmicro hbegin

end Sys2Proof.Machine
end

section
/-! The ring as a list of frames (`spec/10_state.md` rule R13, `spec/40_ring_buffer.md` section 1): what PUSH,
PEEK_MATCHING, POP_AT, CLEAR and the scan of a wait do to the pending sequence. -/

namespace Sys2Proof

/-! ## A wire string read back -/

theorem wireField_head (v : U64) (bs : List Byte) : wireField (leBytes 8 v.toNat ++ bs) 0 = v := by
  unfold wireField
  rw [List.drop_zero, List.take_left' (leBytes_length 8 _), leValue_leBytes]
  exact BitVec.eq_of_toNat_eq (by rw [BitVec.toNat_ofNat]; omega)

theorem wireField_skip (v : Nat) (bs : List Byte) (o : Nat) :
    wireField (leBytes 8 v ++ bs) (8 + o) = wireField bs o := by
  unfold wireField
  rw [← List.drop_drop, List.drop_left' (leBytes_length 8 v)]

theorem drop_leBytes (n v : Nat) (bs : List Byte) (o : Nat) :
    (leBytes n v ++ bs).drop (n + o) = bs.drop o := by
  rw [← List.drop_drop, List.drop_left' (leBytes_length n v)]

/-- `dec` undoes `enc`, field after field (rules R60, R61). -/
theorem Frame.dec_enc (f : Frame) : Frame.dec f.enc = f := by
  have hid : wireField f.enc 0 = f.commandId := wireField_head _ _
  have h0 : wireField f.enc 8 = f.arg0 := (wireField_skip _ _ 0).trans (wireField_head _ _)
  have h1 : wireField f.enc 16 = f.arg1 :=
    (wireField_skip _ _ 8).trans ((wireField_skip _ _ 0).trans (wireField_head _ _))
  have h2 : wireField f.enc 24 = f.arg2 :=
    (wireField_skip _ _ 16).trans ((wireField_skip _ _ 8).trans
      ((wireField_skip _ _ 0).trans (wireField_head _ _)))
  have hpayload : f.enc.drop 32 = f.payload :=
    (drop_leBytes 8 _ _ 24).trans ((drop_leBytes 8 _ _ 16).trans
      ((drop_leBytes 8 _ _ 8).trans (drop_leBytes 8 _ _ 0)))
  unfold Frame.dec
  rw [hid, h0, h1, h2, hpayload]

end Sys2Proof

namespace Sys2Proof.Machine

open Sys2Proof

/-! ## The pending sequence, position by position -/

theorem allOk_eq_ok_iff {α : Type} {rs : List (Except Fault α)} {xs : List α} :
    allOk rs = .ok xs ↔ rs = xs.map .ok := by
  induction rs generalizing xs with
  | nil => cases xs <;> simp [allOk]
  | cons r rs ih =>
    cases r with
    | error e => cases xs <;> simp [allOk]
    | ok x =>
      unfold allOk
      cases hrs : allOk rs with
      | error e =>
        cases xs with
        | nil => simp
        | cons y ys => simp [← ih, hrs]
      | ok zs =>
        obtain rfl := ih.1 hrs
        cases xs with
        | nil => simp
        | cons y ys => simp [List.map_inj_right]

/-- A pending sequence is read off position by position (rule R13). -/
theorem pendingSeq_eq_ok_iff {s : State} {l : List Frame} :
    pendingSeq s = .ok l ↔ l.length = s.count ∧ ∀ i f, l[i]? = some f → pendingAt s i = .ok f := by
  unfold pendingSeq
  rw [allOk_eq_ok_iff]
  constructor
  · intro h
    have hlen : l.length = s.count := by simpa using (congrArg List.length h).symm
    refine ⟨hlen, fun i f hi => ?_⟩
    have hlt : i < s.count := hlen ▸ (List.getElem?_eq_some_iff.1 hi).1
    have hat := congrArg (·[i]?) h
    simpa [hi, hlt] using hat
  · rintro ⟨hlen, hat⟩
    refine List.ext_getElem (by simp [hlen]) fun i hi _ => ?_
    have hlt : i < l.length := by simpa [hlen] using hi
    simpa using hat i l[i] (List.getElem?_eq_getElem hlt)

theorem length_of_pendingSeq {s : State} {l : List Frame} (h : pendingSeq s = .ok l) :
    l.length = s.count := (pendingSeq_eq_ok_iff.1 h).1

theorem pendingAt_of_pendingSeq {s : State} {l : List Frame} {i : Nat} {f : Frame}
    (h : pendingSeq s = .ok l) (hi : l[i]? = some f) : pendingAt s i = .ok f :=
  (pendingSeq_eq_ok_iff.1 h).2 i f hi

theorem getElem?_of_pendingSeq {s : State} {l : List Frame} (h : pendingSeq s = .ok l) {i : Nat}
    (hi : i < s.count) : ∃ f, l[i]? = some f :=
  ⟨_, List.getElem?_eq_getElem (by rw [length_of_pendingSeq h]; exact hi)⟩

/-- Every pending frame of an invariant ring can be read (rules R30, R32). -/
theorem RingInv.exists_pendingSeq {s : State} (h : RingInv s) : ∃ l, pendingSeq s = .ok l := by
  have hread : ∀ i : Fin s.count, ∃ f, pendingAt s i = .ok f := fun i => by
    obtain ⟨bs, hbs⟩ := h.written i i.isLt
    exact ⟨_, (pendingAt_ok s i _).2 ⟨bs, hbs, rfl⟩⟩
  choose f hf using hread
  refine ⟨List.ofFn f, pendingSeq_eq_ok_iff.2 ⟨List.length_ofFn, fun i g hi => ?_⟩⟩
  obtain ⟨hlt, rfl⟩ := List.getElem?_eq_some_iff.1 hi
  rw [List.getElem_ofFn]
  exact hf ⟨i, _⟩

/-- The positions below `N` lie in different slots, so a write to the slot of one changes that one alone
(rules R13, R42). -/
theorem pendingAt_slotWrite {s t : State} {k j : Nat} {bs : List Byte} (htail : s.tail < s.params.ptrMod)
    (hk : k < s.params.cmdBufferSize) (hj : j < s.params.cmdBufferSize)
    (hlen : bs.length = s.params.frameBytes) (h : slotWrite s (pendingSlot s k) bs = .ok t) :
    pendingAt t j = if j = k then .ok (Frame.dec bs) else pendingAt s j := by
  have hslot : pendingSlot t j = pendingSlot s j := by
    obtain ⟨-, rfl⟩ := (slotWrite_ok _ _ _ _).1 h
    rfl
  unfold pendingAt
  rw [hslot, slotRead_slotWrite s t _ _ bs hlen h]
  by_cases hjk : j = k
  · rw [if_pos hjk, if_pos (by rw [hjk])]
  · rw [if_neg hjk, if_neg fun hsame => hjk (pendingSlot_injective s j k htail hj hk hsame)]

/-! ## CLEAR -/

/-- CLEAR empties the pending sequence (rule R83). -/
theorem pendingSeq_clearRing {s : State} (hs : RingInv s) : pendingSeq (clearRing s) = .ok [] :=
  pendingSeq_eq_ok_iff.2 ⟨((count_eq_zero_iff hs.headLt).2 rfl).symm, fun _ _ hi => by cases hi⟩

/-! ## PUSH -/

/-- A frame put into the slot at the head, where the tail stays. -/
def appendFrame (f : Frame) (s : State) : State :=
  { s with
    slots := s.slots.writeBytes (slotAddr s.params (ptrSlot s.params s.head)) f.enc
    head := ptrInc s.params s.head }

theorem pendingSeq_appendFrame {f : Frame} {s : State} {l : List Frame} (hs : RingInv s)
    (hf : f.WF s.params) (hroom : s.count < s.params.cmdBufferSize) (hl : pendingSeq s = .ok l) :
    pendingSeq (appendFrame f s) = .ok (l ++ [f]) := by
  have hlen := length_of_pendingSeq hl
  have henc := enc_length_of_wf s.params f hf
  have hcount : (appendFrame f s).count = s.count + 1 := by
    refine count_of_head (s := appendFrame f s) hs.tailLt ?_ ?_
    · show s.count + 1 < 2 * s.params.cmdBufferSize
      omega
    · show ptrInc s.params s.head = ptrAdd s.params s.tail (s.count + 1)
      rw [ptrAdd_succ hs.sizePos, hs.head_eq]
  have hwrite : slotWrite s (pendingSlot s s.count) f.enc =
      .ok { s with slots := s.slots.writeBytes (slotAddr s.params (ptrSlot s.params s.head)) f.enc } := by
    have hin := slot_inside s.params _ (ptrSlot_lt hs.headLt)
    rw [hs.pendingSlot_count]
    exact (slotWrite_ok s _ _ f.enc).2 ⟨by rw [henc]; exact hin, rfl⟩
  refine pendingSeq_eq_ok_iff.2 ⟨by simp [hcount, hlen], fun i g hi => ?_⟩
  have hlt : i < s.count + 1 := by simpa [hlen] using (List.getElem?_eq_some_iff.1 hi).1
  have hat := pendingAt_slotWrite (j := i) hs.tailLt hroom (by omega) henc hwrite
  rw [show pendingAt (appendFrame f s) i = _ from hat]
  rcases Nat.lt_or_ge i s.count with hold | hnew
  · rw [if_neg (Nat.ne_of_lt hold)]
    rw [List.getElem?_append_left (by omega)] at hi
    exact pendingAt_of_pendingSeq hl hi
  · obtain rfl : i = l.length := by omega
    rw [if_pos hlen, Frame.dec_enc]
    simpa using hi

/-- Where the oldest frame has left, every position is the next one of before (rule R13). -/
theorem pendingAt_dropOldest {s : State} (htail : s.tail < s.params.ptrMod) (i : Nat) :
    pendingAt (dropOldest s) i = pendingAt s (i + 1) := by
  have hslot : pendingSlot (dropOldest s) i = pendingSlot s (i + 1) :=
    pendingSlot_succ (s := s) (t := dropOldest s) rfl htail rfl i
  unfold pendingAt
  rw [hslot]
  rfl

/-- Without the oldest frame the rest stays in order. -/
theorem pendingSeq_dropOldest {s : State} {l : List Frame} (hs : RingInv s) (hpos : 0 < s.count)
    (hl : pendingSeq s = .ok l) : pendingSeq (dropOldest s) = .ok l.tail := by
  have hcount : (dropOldest s).count = s.count - 1 := hs.count_remove hpos rfl rfl rfl
  refine pendingSeq_eq_ok_iff.2 ⟨by rw [hcount, List.length_tail, length_of_pendingSeq hl], fun i f hi => ?_⟩
  rw [List.getElem?_tail] at hi
  exact (pendingAt_dropOldest hs.tailLt i).trans (pendingAt_of_pendingSeq hl hi)

/-- PUSH drops the oldest frame of a full ring, then appends (rule R80). -/
theorem push_eq {f : Frame} {s : State} (hs : RingInv s) (hf : f.WF s.params) :
    push f s = .ok (!s.full, appendFrame f (if s.full then dropOldest s else s)) := by
  obtain ⟨t, ht⟩ := pushWire_succeeds f.enc s hs.headLt (enc_length_of_wf s.params f hf)
  obtain ⟨-, -, rfl⟩ := pushWire_ok _ _ _ _ ht
  refine ht.trans ?_
  cases s.full <;> rfl

/-- The frames that PUSH leaves of those pending before: all, or all but the oldest of a full ring
(rule R80). -/
def keptByPush (s : State) (l : List Frame) : List Frame := if s.full then l.tail else l

theorem full_iff {s : State} : s.full = true ↔ s.count = s.params.cmdBufferSize := decide_eq_true_iff

/-- PUSH on the list (rules R80, R84). -/
theorem push_list {f : Frame} {s : State} {l : List Frame} (hs : RingInv s) (hf : f.WF s.params)
    (hl : pendingSeq s = .ok l) :
    ∃ t, push f s = .ok (!s.full, t) ∧ pendingSeq t = .ok (keptByPush s l ++ [f]) := by
  refine ⟨_, push_eq hs hf, ?_⟩
  have hle := hs.countLe
  have hsize := hs.sizePos
  unfold keptByPush
  by_cases hfull : s.full = true
  · have hcount := full_iff.1 hfull
    have hpos : 0 < s.count := by omega
    have hroom : (dropOldest s).count = s.count - 1 := hs.count_remove hpos rfl rfl rfl
    rw [if_pos hfull, if_pos hfull]
    exact pendingSeq_appendFrame (hs.dropOldest hpos) hf (by rw [hroom]; show _ < s.params.cmdBufferSize; omega)
      (pendingSeq_dropOldest hs hpos hl)
  · have hcount := mt full_iff.2 hfull
    rw [if_neg hfull, if_neg hfull]
    exact pendingSeq_appendFrame hs hf (by omega) hl

/-! ## PEEK_MATCHING -/

theorem scanFrom_list {s : State} {P : Frame → Bool} {n i : Nat} {l : List Frame} (hn : l.length = n)
    (hat : ∀ j f, l[j]? = some f → pendingAt s (i + j) = .ok f) :
    scanFrom s P i n = .ok ((l.findIdx? P).map (i + ·)) := by
  induction l generalizing i n with
  | nil =>
    subst hn
    rfl
  | cons f fs ih =>
    obtain rfl : fs.length + 1 = n := hn
    have hhead : pendingAt s i = .ok f := hat 0 f rfl
    have htail := ih (i := i + 1) rfl fun j g hj => by
      rw [Nat.add_assoc, Nat.add_comm 1 j]
      exact hat (j + 1) g hj
    unfold scanFrom
    rw [hhead]
    cases hP : P f with
    | true => simp [hP, List.findIdx?_cons]
    | false =>
      simp only [hP, htail, List.findIdx?_cons]
      cases fs.findIdx? P <;> simp [Nat.add_comm, Nat.add_left_comm]

/-- PEEK_MATCHING on the list (rule R81). -/
theorem peekMatching_list {P : Frame → Bool} {s : State} {l : List Frame} (hl : pendingSeq s = .ok l) :
    peekMatching P s = .ok (l.findIdx? P, s) := by
  obtain ⟨hlen, hat⟩ := pendingSeq_eq_ok_iff.1 hl
  have hscan : scanFrom s P 0 s.count = .ok (l.findIdx? P) := by
    rw [scanFrom_list hlen (i := 0) (by simpa using hat)]
    simp
  unfold peekMatching
  rw [hscan]

/-! ## POP_AT -/

/-- The shift succeeds where the positions it copies can be read (rule R82). -/
theorem shiftOlder_succeeds {i : Nat} {s : State} (hsize : 1 ≤ s.params.cmdBufferSize)
    (hread : ∀ j, j < i → Readable s (pendingSlot s j)) : ∃ t, shiftOlder s i = .ok t := by
  induction i generalizing s with
  | zero => exact ⟨s, rfl⟩
  | succ j ih =>
    obtain ⟨bs, hbs⟩ := hread j (Nat.lt_succ_self j)
    have hlen := slotRead_length s _ bs hbs
    have hin := slot_inside s.params _ (pendingSlot_lt s (j + 1) hsize)
    have hwrite := (slotWrite_ok s _ (pendingSlot s (j + 1)) bs).2 ⟨by rw [hlen]; exact hin, rfl⟩
    unfold shiftOlder
    rw [hbs]
    simp only [hwrite]
    refine ih hsize fun k hk => ?_
    exact readable_slotWrite hlen hwrite (.inr (hread k (by omega)))

/-- The shift moves positions `0` to `i - 1` one up and leaves those above `i` alone (rule R82). -/
theorem pendingAt_shiftOlder {i : Nat} {s t : State} (htail : s.tail < s.params.ptrMod)
    (hi : i < s.params.cmdBufferSize) (h : shiftOlder s i = .ok t) {j : Nat}
    (hj : j < s.params.cmdBufferSize) :
    pendingAt t j = if 1 ≤ j ∧ j ≤ i then pendingAt s (j - 1) else pendingAt s j := by
  induction i generalizing s j with
  | zero =>
    cases h
    rw [if_neg (by omega)]
  | succ k ih =>
    unfold shiftOlder at h
    split at h
    · cases h
    · rename_i bs hread
      split at h
      · cases h
      · rename_i s1 hwrite
        have hcopied : pendingAt s k = .ok (Frame.dec bs) := (pendingAt_ok s k _).2 ⟨bs, hread, rfl⟩
        have hlen := slotRead_length s _ bs hread
        have hat : ∀ m, m < s.params.cmdBufferSize →
            pendingAt s1 m = if m = k + 1 then pendingAt s k else pendingAt s m := fun m hm => by
          rw [pendingAt_slotWrite htail hi hm hlen hwrite, hcopied]
        have hframe : s1.params = s.params ∧ s1.tail = s.tail := by
          obtain ⟨-, rfl⟩ := (slotWrite_ok _ _ _ _).1 hwrite
          exact ⟨rfl, rfl⟩
        obtain ⟨hparams, htail1⟩ := hframe
        rw [← hparams] at hi hj
        rw [ih (by rw [htail1, hparams]; exact htail) (Nat.lt_of_succ_lt hi) h hj]
        rw [hparams] at hj
        rcases Nat.lt_trichotomy j (k + 1) with hbelow | rfl | habove
        · rw [hat j hj, hat (j - 1) (by omega), if_neg (Nat.ne_of_lt hbelow),
            if_neg (show j - 1 ≠ k + 1 by omega)]
          simp only [show j ≤ k ↔ j ≤ k + 1 by omega]
        · rw [if_neg (by omega), hat _ hj, if_pos rfl, if_pos (by omega), Nat.add_sub_cancel]
        · rw [if_neg (by omega), hat j hj, if_neg (by omega), if_neg (by omega)]

/-- POP_AT shifts, then the tail moves on as where the oldest frame leaves (rule R82). -/
theorem popAtPos_eq {i : Nat} {f : Frame} {s s1 : State} (hi : i < s.count) (hf : pendingAt s i = .ok f)
    (hshift : shiftOlder s i = .ok s1) : popAtPos i s = .ok (some f, dropOldest s1) := by
  have hdrop : { s1 with tail := ptrInc s.params s.tail } = dropOldest s1 := by
    rw [shiftOlder_frame i s s1 hshift]
    rfl
  unfold popAtPos
  rw [if_pos hi, hf, hshift]
  simp only [hdrop]

/-- POP_AT on the list: the frame of its position is handed over and leaves the list (rules R82, R84). -/
theorem popAtPos_list {i : Nat} {f : Frame} {s : State} {l : List Frame} (hs : RingInv s)
    (hl : pendingSeq s = .ok l) (hi : l[i]? = some f) :
    ∃ t, popAtPos i s = .ok (some f, t) ∧ pendingSeq t = .ok (l.eraseIdx i) := by
  have hlen := length_of_pendingSeq hl
  have hlt : i < s.count := hlen ▸ (List.getElem?_eq_some_iff.1 hi).1
  have hle := hs.countLe
  obtain ⟨s1, hshift⟩ := shiftOlder_succeeds hs.sizePos fun j (hj : j < i) =>
    hs.written j (by omega)
  refine ⟨_, popAtPos_eq hlt (pendingAt_of_pendingSeq hl hi) hshift, ?_⟩
  have hframe := shiftOlder_frame i s s1 hshift
  have hparams : s1.params = s.params := by rw [hframe]
  have hhead : s1.head = s.head := by rw [hframe]
  have htail : s1.tail = s.tail := by rw [hframe]
  have hcount : (dropOldest s1).count = s.count - 1 :=
    hs.count_remove (t := dropOldest s1) (by omega) hparams hhead (by rw [← hparams, ← htail]; rfl)
  have hlenErase := List.length_eraseIdx_of_lt (hlen ▸ hlt : i < l.length)
  refine pendingSeq_eq_ok_iff.2 ⟨by rw [hcount, hlenErase, hlen], fun j g hj => ?_⟩
  have hjlt : j < (l.eraseIdx i).length := (List.getElem?_eq_some_iff.1 hj).1
  rw [pendingAt_dropOldest (by rw [htail, hparams]; exact hs.tailLt),
    pendingAt_shiftOlder hs.tailLt (by omega) hshift (by omega)]
  rw [List.getElem?_eraseIdx] at hj
  by_cases hji : j < i
  · rw [if_pos hji] at hj
    rw [if_pos (by omega)]
    exact pendingAt_of_pendingSeq hl hj
  · rw [if_neg hji] at hj
    rw [if_neg (by omega)]
    exact pendingAt_of_pendingSeq hl hj

/-- POP_AT of a position that is not pending changes nothing (rule R82). -/
theorem popAtPos_out_of_range {i : Nat} {s : State} (hi : s.count ≤ i) : popAtPos i s = .ok (none, s) :=
  if_neg (by omega)

/-! ## The scan of a wait -/

/-- The scan on the list: the oldest frame with the identifier is handed over and leaves the list
(rule R101). -/
theorem scanBody_list {id : U64} {s : State} {l : List Frame} (hs : RingInv s) (hl : pendingSeq s = .ok l) :
    ∃ t, scanBody id s = .ok (l.find? (matchesId id), t) ∧
      pendingSeq t = .ok (l.eraseP (matchesId id)) := by
  have hpeek := peekMatching_list (P := matchesId id) hl
  have herase := List.eraseP_eq_eraseIdx (xs := l) (p := matchesId id)
  unfold scanBody
  rw [hpeek, herase]
  cases hfind : l.findIdx? (matchesId id) with
  | none =>
    have hnone : l.find? (matchesId id) = none := by
      rw [List.find?_eq_none]
      simpa using List.findIdx?_eq_none_iff.1 hfind
    exact ⟨s, by rw [hnone], hl⟩
  | some i =>
    obtain ⟨hlt, hmatch, hfirst⟩ := List.findIdx?_eq_some_iff_getElem.1 hfind
    have hsome : l.find? (matchesId id) = some l[i] :=
      List.find?_eq_some_iff_getElem.2 ⟨hmatch, i, hlt, rfl, by simpa using hfirst⟩
    rw [hsome]
    exact popAtPos_list hs hl (List.getElem?_eq_getElem hlt)

end Sys2Proof.Machine
end

section
/-! The lock seen from an agent that asks for it (`spec/20_memory.md` rule R47), and the order in which scans
take frames (rule R50). -/

namespace Sys2Proof.Machine

open Sys2Proof

/-! ## A held lock -/

theorem onPort_idle {c : Nat} {s : State} (h : phaseOf s c = some .idle)
    (body : Waiter → Host.Outcome State Fault Refusal) : ∃ w, onPort c s body = body w := by
  obtain ⟨w, hw, hidle⟩ := phaseOf_eq_some.1 h
  exact ⟨w, onPort_ready c s w body hw hidle⟩

/-- A request whose body changes nothing changes nothing, accepted or not. -/
theorem onPort_unchanged {c : Nat} {s : State} (h : phaseOf s c = some .idle)
    {body : Waiter → Host.Outcome State Fault Refusal} (hbody : ∀ w, body w = .next s) :
    onPort c s body = .next s := by
  obtain ⟨w, hw⟩ := onPort_idle h body
  rw [hw, hbody]

theorem onProducer_unchanged {s : State} {body : Host.Outcome State Fault Refusal} (hbody : body = .next s) :
    onProducer s body = .next s := by
  unfold onProducer
  rw [hbody, ite_self]

theorem onController_unchanged {s : State} {body : Host.Outcome State Fault Refusal}
    (hbody : body = .next s) : onController s body = .next s := by
  unfold onController
  rw [hbody, ite_self]

theorem withFrame_wf {f : Frame} {s : State} (h : f.WF s.params) (body : Host.Outcome State Fault Refusal) :
    withFrame f s body = body := if_pos h

theorem microStep_scan {s : State} {c : Nat} {w : Waiter} (hw : s.waiters[c]? = some w)
    (hscan : w.phase = .scan) : microStep c s = wScan c w s := by
  unfold microStep
  rw [hw]
  simp only [hscan]

/-- Settles O57: each of these asks for the lock before it does anything else to the state. -/
theorem aHeldLockKeepsOthersOut : Obligations.AHeldLockKeepsOthersOut := by
  intro s a c hheld
  have hlock : ∀ {α : Type} (b : Agent) (body : State → Except Fault (α × State)) after,
      withLock b s body after = .next s := fun b body after => withLock_held b a s body after hheld
  refine ⟨fun hidle => ⟨fun id => ?peek, fun x => ?popAt, ?clear, ?status, fun f hf => ?send⟩,
    fun hphase => ?scan, fun f hf => ?rxFrame, ?rxError, fun h hfits => ?reconnect⟩
  case peek | popAt | clear | status => exact onPort_unchanged hidle fun _ => hlock _ _ _
  case send => exact onPort_unchanged hidle fun _ => (withFrame_wf hf _).trans (hlock _ _ _)
  case scan =>
    obtain ⟨w, hw, hscan⟩ := phaseOf_eq_some.1 hphase
    exact (microStep_scan hw hscan).trans (hlock _ _ _)
  case rxFrame => exact onProducer_unchanged ((withFrame_wf hf _).trans (hlock _ _ _))
  case rxError => exact onProducer_unchanged (hlock _ _ _)
  case reconnect => exact onController_unchanged ((if_pos hfits).trans (hlock _ _ _))

/-! ## The free lock -/

/-- With the lock free a body that does not see the lock runs on the state as it is (rule R47). -/
theorem withLock_run {α : Type} {a : Agent} {s s1 : State} {r : α}
    {body : State → Except Fault (α × State)} {after : α → State → Host.Outcome State Fault Refusal}
    (hb : IgnoresLock body) (hfree : s.lock = .free) (hr : body s = .ok (r, s1)) :
    withLock a s body after = after r (lockRelease s1) := by
  obtain ⟨l, x, hg⟩ := lockGrant_lockRequest a s
  rw [withLock_free a s body after hfree, hg, hb, hr]
  rfl

/-! ## The order of scans -/

/-- A scan writes slots and `tail` alone (rule R101). -/
theorem scanBody_frame {id : U64} {s t : State} {r : Option Frame} (h : scanBody id s = .ok (r, t)) :
    ∃ m k, t = { s with slots := m, tail := k } := by
  cases r with
  | none =>
    obtain rfl := scanBody_none h
    exact ⟨_, _, rfl⟩
  | some f =>
    obtain ⟨i, hpop⟩ := scanBody_some h
    exact popAtPos_frame hpop

theorem pendingSeq_scanAnswer (c : Nat) (w : Waiter) (r : Option Frame) (s : State) :
    pendingSeq (scanAnswer c w r (lockRelease s)) = pendingSeq s := by
  cases r <;> rfl

/-- W_SCAN on the list (rule R101): the oldest frame with the identifier is answered and leaves the list. -/
theorem wScan_list {c : Nat} {w : Waiter} {s t : State} {l l' : List Frame} (hs : Inv s)
    (hl : pendingSeq s = .ok l) (h : wScan c w s = .next t) (hl' : pendingSeq t = .ok l') :
    l' = l.eraseP (matchesId w.wantId) ∧
    ∃ s1, s1.out = s.out ∧ t = scanAnswer c w (l.find? (matchesId w.wantId)) (lockRelease s1) := by
  obtain ⟨s1, hscan, hs1⟩ := scanBody_list (id := w.wantId) hs.ring hl
  have hrun : wScan c w s = .next (scanAnswer c w (l.find? (matchesId w.wantId)) (lockRelease s1)) :=
    withLock_run (ignoresLock_scanBody _) hs.lockFree hscan
  rw [hrun] at h
  cases h
  rw [pendingSeq_scanAnswer, hs1] at hl'
  cases hl'
  refine ⟨rfl, s1, ?_, rfl⟩
  obtain ⟨m, k, rfl⟩ := scanBody_frame hscan
  rfl

/-- Without its first frame that satisfies `P`, a list has the later ones that do. -/
theorem filter_eraseP_same (P : Frame → Bool) (l : List Frame) :
    (l.eraseP P).filter P = (l.filter P).tail := by
  induction l with
  | nil => rfl
  | cons f l ih => cases hP : P f <;> simp [hP, ih]

/-- And all that satisfy a predicate which no frame shares with `P`. -/
theorem filter_eraseP_other {P Q : Frame → Bool} (hPQ : ∀ f, P f = true → Q f = false) (l : List Frame) :
    (l.eraseP P).filter Q = l.filter Q := by
  induction l with
  | nil => rfl
  | cons f l ih =>
    cases hP : P f with
    | true => simp [hP, hPQ f hP]
    | false => simp [hP, List.filter_cons, ih]

theorem matchesId_disjoint {id id' : U64} (hne : id' ≠ id) (f : Frame) (h : matchesId id f = true) :
    matchesId id' f = false :=
  decide_eq_false fun h' => hne (h'.symm.trans (of_decide_eq_true h))

/-- Settles O33: what a scan takes is the first of the frames with its identifier, so all others keep their
order. -/
theorem scanIsFifoPerIdentifier : Obligations.ScanIsFifoPerIdentifier := by
  intro s t c w l l' hs hw hphase hstep hl hl'
  rw [microStep_scan hw hphase] at hstep
  obtain ⟨rfl, s1, hout, rfl⟩ := wScan_list hs hl hstep hl'
  have hhead : (withId w.wantId l).head? = l.find? (matchesId w.wantId) := List.head?_filter
  refine ⟨List.eraseP_sublist, filter_eraseP_same _ l,
    fun id hid => filter_eraseP_other (matchesId_disjoint hid) l, fun f hf => ?_, fun hnone => ?_⟩
  · rw [hhead] at hf
    rw [hf, ← hout]
    rfl
  · rw [hhead] at hnone
    rw [hnone, ← hout]
    rfl

end Sys2Proof.Machine
end

section
/-! Frames are neither duplicated nor lost (`spec/20_memory.md` rules R51, R52): what every operation and
micro-step does to the frames of the ring, and what it hands over. -/

namespace Sys2Proof.Machine

open Sys2Proof

/-- What the ports have handed to consumers in this step, as it stands on `C_RDATA`. -/
def handedOver (s : State) : List Nat := s.out.flatMap deliveredBy

theorem handedOver_emit (e : Event) (s : State) : handedOver (emit e s) = handedOver s ++ deliveredBy e := by
  show (s.out ++ [e]).flatMap deliveredBy = _
  rw [List.flatMap_append, List.flatMap_singleton]
  rfl

/-! ## The body of SEND -/

theorem sendBody_online {f : Frame} {s : State} (hon : s.online = true) :
    sendBody f s = (.ok, emitTx f s) := if_pos hon

theorem sendBody_offline {f : Frame} {s : State} (hoff : s.online = false) :
    sendBody f s = (.deferred, { s with pendingFrame := f.enc, pendingValid := true }) :=
  if_neg (by rw [hoff]; exact Bool.false_ne_true)

/-! ## What leaves the frames alone -/

/-- The pending frames are the same and no frame is handed over. -/
def Quiet (s t : State) : Prop := pendingSeq t = pendingSeq s ∧ handedOver t = handedOver s

namespace Quiet

theorem refl (s : State) : Quiet s s := ⟨rfl, rfl⟩

theorem trans {s t u : State} (hst : Quiet s t) (htu : Quiet t u) : Quiet s u :=
  ⟨htu.1.trans hst.1, htu.2.trans hst.2⟩

theorem emit {e : Event} (he : deliveredBy e = []) (s : State) : Quiet s (emit e s) :=
  ⟨rfl, by rw [handedOver_emit, he, List.append_nil]⟩

theorem lockRelease (s : State) : Quiet s (lockRelease s) := ⟨rfl, rfl⟩

theorem goOnline (h : U64) (s : State) : Quiet s (goOnline h s) := by
  rw [goOnline_eq]
  refine ⟨rfl, ?_⟩
  cases hvalid : s.pendingValid with
  | false => rfl
  | true => exact (emit (e := .tx _ h) rfl s).2

theorem reportOverflow (b : Bool) (s : State) : Quiet s (reportOverflow b s) := by
  cases b
  · exact emit rfl s
  · exact refl s

theorem sendBody (f : Frame) (s : State) : Quiet s (sendBody f s).2 := by
  cases hon : s.online with
  | true =>
    rw [sendBody_online hon]
    exact emit rfl s
  | false =>
    rw [sendBody_offline hon]
    exact ⟨rfl, rfl⟩

theorem kPerform (h : U64) (s : State) : Quiet s (kPerform (kLatch h s)).2 := by
  cases hon : s.online with
  | true =>
    rw [kPerform_online hon]
    exact ⟨rfl, rfl⟩
  | false =>
    rw [kPerform_offline hon]
    exact (goOnline h s).trans ⟨rfl, rfl⟩

theorem onPort {c : Nat} {s s' : State} {body : Waiter → Host.Outcome State Fault Refusal}
    (h : onPort c s body = .next s') (hbody : ∀ w, body w = .next s' → Quiet s s') : Quiet s s' := by
  obtain ⟨w, -, ⟨-, rfl⟩ | ⟨-, hb⟩⟩ := onPort_next c s s' body h
  · exact refl _
  · exact hbody w hb

theorem onController {s s' : State} {body : Host.Outcome State Fault Refusal}
    (h : onController s body = .next s') (hbody : body = .next s' → Quiet s s') : Quiet s s' := by
  obtain ⟨-, rfl⟩ | ⟨-, hb⟩ := onController_next s s' body h
  · exact refl _
  · exact hbody hb

/-- A body under the lock, then the answer outside it. -/
theorem withLock {α : Type} {a : Agent} {s s' : State} {body : State → Except Fault (α × State)}
    {after : α → State → Host.Outcome State Fault Refusal} (hb : IgnoresLock body)
    (h : withLock a s body after = .next s') (hbody : ∀ r t, body s = .ok (r, t) → Quiet s t)
    (hafter : ∀ r t, after r t = .next s' → Quiet t s') : Quiet s s' := by
  obtain rfl | ⟨r, t, hr, -, ha⟩ := withLock_next_of_ignoresLock hb h
  · exact refl _
  · exact (hbody r t hr).trans ((lockRelease t).trans (hafter r _ ha))

end Quiet

/-- The operations that rule R84 does not name leave the frames alone. -/
theorem exec_quiet {i : Instr} {s s' : State} (hi : mayChangeRing i = false) (h : exec i s = .next s') :
    Quiet s s' := by
  cases i with
  | popAt | clear | rxFrame => cases hi
  | nop c =>
    refine Quiet.onPort h fun _ hb => ?_
    cases hb
    exact .emit rfl s
  | peek c id =>
    refine Quiet.onPort h fun _ hb => .withLock (ignoresLock_peekMatching _) hb (fun r t hr => ?_)
      fun r t ha => ?_
    · obtain ⟨rfl, -⟩ := peekMatching_ok _ _ _ _ hr
      exact .refl _
    · cases ha
      cases r <;> exact .emit rfl t
  | waitFor c id tm =>
    refine Quiet.onPort h fun _ hb => ?_
    cases hb
    exact ⟨rfl, rfl⟩
  | waitForever c id =>
    refine Quiet.onPort h fun _ hb => ?_
    cases hb
    exact ⟨rfl, rfl⟩
  | send c f =>
    refine Quiet.onPort h fun _ hb => .withLock (ignoresLock_send f) (withFrame_next _ _ _ _ hb).2
      (fun r t hr => ?_) fun r t ha => ?_
    · have hquiet := Quiet.sendBody f s
      rwa [Except.ok.inj hr] at hquiet
    · cases ha
      exact .emit rfl t
  | status c =>
    refine Quiet.onPort h fun _ hb => .withLock ignoresLock_status hb (fun r t hr => ?_) fun r t ha => ?_
    · cases hr
      exact .refl _
    · cases ha
      exact .emit rfl t
  | rxError =>
    obtain ⟨-, rfl⟩ | ⟨-, hb⟩ := onProducer_next _ _ _ h
    · exact .refl _
    refine Quiet.withLock ignoresLock_goOffline hb (fun r t hr => ?_) fun r t ha => ?_
    · cases hr
      exact ⟨rfl, rfl⟩
    · cases ha
      exact .refl _
  | knop =>
    refine Quiet.onController h fun hb => ?_
    cases hb
    exact .emit rfl s
  | reconnect k =>
    refine Quiet.onController h fun hb => ?_
    split_ifs at hb
    · refine Quiet.withLock (ignoresLock_reconnect k) hb (fun r t hr => ?_) fun r t ha => ?_
      · have hquiet := Quiet.kPerform k s
        rwa [Except.ok.inj hr] at hquiet
      · cases ha
        exact .emit (e := .kDone r.code) rfl t
    · cases hb
      exact .emit rfl s

/-! ## The balance of frames -/

/-- From `s` to `s'` the frames balance (rules R51, R52): those pending and the one accepted are those pending
after, the one handed over and those dropped. `op` is the operation presented; a micro-step has none. -/
def Balanced (s : State) (op : Option Instr) (s' : State) : Prop :=
  ∃ accepted delivered dropped : List Frame,
    (∀ l l', pendingSeq s = .ok l → pendingSeq s' = .ok l' →
      (l ++ accepted).Perm (l' ++ delivered ++ dropped)) ∧
    handedOver s' = handedOver s ++ delivered.map frameBus ∧ delivered.length ≤ 1 ∧
    (accepted = [] ∨ ∃ f, accepted = [f] ∧ s.online = true ∧ op = some (.rxFrame f)) ∧
    (dropped = [] ∨ (∃ c, op = some (.clear c)) ∨
      (dropped.length = 1 ∧ Event.ovf ∈ s'.out ∧ s.full = true))

theorem Quiet.balanced {s s' : State} (h : Quiet s s') (op : Option Instr) : Balanced s op s' := by
  obtain ⟨hpending, hhanded⟩ := h
  refine ⟨[], [], [], fun l l' hl hl' => ?_, by simp [hhanded], by simp, .inl rfl, .inl rfl⟩
  rw [hpending, hl] at hl'
  cases hl'
  simp

/-- POP_AT takes one frame out (rule R82). -/
theorem popAtPos_perm {i : Nat} {f : Frame} {s t : State} {l l' : List Frame} (hs : RingInv s)
    (hpop : popAtPos i s = .ok (some f, t)) (hl : pendingSeq s = .ok l) (hl' : pendingSeq t = .ok l') :
    l.Perm (l' ++ [f]) := by
  obtain ⟨-, hf, -⟩ | ⟨hi, -⟩ := popAtPos_ok _ _ _ _ hpop
  · cases hf
  have hlt : i < l.length := by
    rw [length_of_pendingSeq hl]
    exact hi
  obtain ⟨t1, hpop1, ht1⟩ := popAtPos_list hs hl (List.getElem?_eq_getElem hlt)
  rw [hpop] at hpop1
  cases hpop1
  rw [ht1] at hl'
  cases hl'
  exact (List.getElem_cons_eraseIdx_perm hlt).symm.trans (List.perm_append_singleton _ _).symm

/-- A frame taken out by POP_AT, or by a scan, and handed to a consumer balances (rule R52). -/
theorem balanced_of_taken {i c : Nat} {f : Frame} {s t s' : State} {op : Option Instr} {rsp : BitVec 72}
    (hs : RingInv s) (hpop : popAtPos i s = .ok (some f, t)) (hpending : pendingSeq s' = pendingSeq t)
    (hout : s'.out = t.out ++ [.done c rsp (some (frameBus f))]) : Balanced s op s' := by
  refine ⟨[], [f], [], fun l l' hl hl' => ?_, ?_, Nat.le_refl 1, .inl rfl, .inl rfl⟩
  · rw [hpending] at hl'
    simpa using popAtPos_perm hs hpop hl hl'
  · obtain ⟨m, k, rfl⟩ := popAtPos_frame hpop
    unfold handedOver
    rw [hout, List.flatMap_append]
    rfl

theorem execPopAt_balanced {c : Nat} {a : U64} {s s' : State} (hs : Inv s)
    (h : execPopAt c a s = .next s') : Balanced s (some (.popAt c a)) s' := by
  obtain ⟨w, -, ⟨-, rfl⟩ | ⟨-, hb⟩⟩ := onPort_next _ _ _ _ h
  · exact (Quiet.refl _).balanced _
  obtain rfl | ⟨r, t, hpop, -, hafter⟩ := withLock_next_of_ignoresLock (ignoresLock_popAtPos _) hb
  · exact (Quiet.refl _).balanced _
  cases hafter
  cases r with
  | some f => exact balanced_of_taken hs.ring hpop rfl rfl
  | none =>
    obtain ⟨-, -, rfl⟩ | ⟨-, f, s1, -, -, hf, -⟩ := popAtPos_ok _ _ _ _ hpop
    · exact ((Quiet.lockRelease t).trans (.emit rfl _)).balanced _
    · cases hf

/-- CLEAR drops all pending frames (rules R52, R83). -/
theorem execClear_balanced {c : Nat} {s s' : State} (hs : Inv s) (h : execClear c s = .next s') :
    Balanced s (some (.clear c)) s' := by
  obtain ⟨w, -, ⟨-, rfl⟩ | ⟨-, hb⟩⟩ := onPort_next _ _ _ _ h
  · exact (Quiet.refl _).balanced _
  rw [withLock_run ignoresLock_clear hs.lockFree rfl] at hb
  cases hb
  obtain ⟨l, hl⟩ := hs.ring.exists_pendingSeq
  have hempty : pendingSeq (respond c .ok 0 none (lockRelease (clearRing s))) = .ok [] :=
    pendingSeq_clearRing (s := s) hs.ring
  refine ⟨[], [], l, fun l1 l' hl1 hl' => ?_, ?_, Nat.zero_le 1, .inl rfl, .inr (.inl ⟨c, rfl⟩)⟩
  · rw [hl] at hl1
    cases hl1
    rw [hempty] at hl'
    cases hl'
    simp
  · exact handedOver_emit _ _

/-- The frames that PUSH drops: none, or the oldest of a full ring (rules R52, R80). -/
def droppedByPush (s : State) (l : List Frame) : List Frame := if s.full then l.take 1 else []

theorem droppedByPush_append_keptByPush (s : State) (l : List Frame) :
    droppedByPush s l ++ keptByPush s l = l := by
  unfold droppedByPush keptByPush
  split_ifs
  · rw [← List.drop_one, List.take_append_drop]
  · rfl

/-- RX_FRAME accepts its frame; a full ring drops its oldest, and OVF reports it (rules R52, R121, R122). -/
theorem execRxFrame_balanced {f : Frame} {s s' : State} (hs : Inv s) (h : execRxFrame f s = .next s') :
    Balanced s (some (.rxFrame f)) s' := by
  obtain ⟨-, rfl⟩ | ⟨hon, hb⟩ := onProducer_next _ _ _ h
  · exact (Quiet.refl _).balanced _
  obtain ⟨hwf, hb⟩ := withFrame_next _ _ _ _ hb
  obtain ⟨l, hl⟩ := hs.ring.exists_pendingSeq
  obtain ⟨t, hpush, ht⟩ := push_list hs.ring hwf hl
  rw [withLock_run (ignoresLock_push f) hs.lockFree hpush] at hb
  cases hb
  obtain ⟨hpending, hhanded⟩ := (Quiet.lockRelease t).trans (.reportOverflow (!s.full) _)
  refine ⟨[f], [], droppedByPush s l, fun l1 l' hl1 hl' => ?_, ?_, Nat.zero_le 1, .inr ⟨f, rfl, hon, rfl⟩, ?_⟩
  · rw [hl] at hl1
    cases hl1
    rw [hpending, ht] at hl'
    cases hl'
    calc (l ++ [f]).Perm (droppedByPush s l ++ (keptByPush s l ++ [f])) := by
          rw [← List.append_assoc, droppedByPush_append_keptByPush]
      _ |>.Perm (keptByPush s l ++ [f] ++ [] ++ droppedByPush s l) := by
          rw [List.append_nil]
          exact List.perm_append_comm
  · obtain ⟨m, k, rfl⟩ := push_frame hpush
    rw [hhanded]
    exact (List.append_nil _).symm
  · cases hfull : s.full with
    | false => exact .inl (by unfold droppedByPush; rw [hfull]; rfl)
    | true =>
      have hcount := full_iff.1 hfull
      have hsize := hs.ring.sizePos
      have hlen := length_of_pendingSeq hl
      refine .inr (.inr ⟨?_, List.mem_append_right _ List.mem_cons_self, rfl⟩)
      unfold droppedByPush
      rw [hfull, if_pos rfl, List.length_take]
      omega

theorem exec_balanced {i : Instr} {s s' : State} (hs : Inv s) (h : exec i s = .next s') :
    Balanced s (some i) s' := by
  cases i with
  | popAt c a => exact execPopAt_balanced hs h
  | clear c => exact execClear_balanced hs h
  | rxFrame f => exact execRxFrame_balanced hs h
  | nop | peek | waitFor | waitForever | send | status | rxError | knop | reconnect =>
    exact (exec_quiet rfl h).balanced _

theorem wScan_balanced {c : Nat} {w : Waiter} {s s' : State} (hs : Inv s) (h : wScan c w s = .next s') :
    Balanced s none s' := by
  obtain rfl | ⟨r, t, hscan, -, hafter⟩ := withLock_next_of_ignoresLock (ignoresLock_scanBody _) h
  · exact (Quiet.refl _).balanced _
  cases hafter
  cases r with
  | none =>
    obtain rfl := scanBody_none hscan
    exact Quiet.balanced ⟨rfl, rfl⟩ _
  | some f =>
    obtain ⟨i, hpop⟩ := scanBody_some hscan
    exact balanced_of_taken hs.ring hpop rfl rfl

theorem wCheck_quiet {c : Nat} {w : Waiter} {s s' : State} (h : wCheck c w s = .next s') : Quiet s s' := by
  unfold wCheck at h
  split_ifs at h
  · cases h
    exact (Quiet.emit (e := .done c _ none) rfl s).trans ⟨rfl, rfl⟩
  · cases h
    exact ⟨rfl, rfl⟩

theorem microStep_balanced {c : Nat} {s s' : State} (hs : Inv s) (h : microStep c s = .next s') :
    Balanced s none s' := by
  unfold microStep at h
  split at h
  · cases h
  · split at h
    · cases h
      exact (Quiet.refl _).balanced _
    · exact wScan_balanced hs h
    · exact (wCheck_quiet h).balanced _
    · cases h
      exact Quiet.balanced ⟨rfl, rfl⟩ _

theorem answerIllegal_quiet {w : PortWords} {e : DecodeError} {s s' : State}
    (h : answerIllegal w e s = .next s') : Quiet s s' := by
  unfold answerIllegal at h
  split at h
  · cases h
  · refine Quiet.onPort h fun _ hb => ?_
    cases hb
    exact .emit rfl s
  · refine Quiet.onController h fun hb => ?_
    cases hb
    exact .emit rfl s
  · cases h
    exact .refl _

/-- Every turn but a reset balances, with the operation its words decode to. -/
theorem stepAction_balanced {a : Action} {s s' : State} (hs : Inv s) (hact : a ≠ .reset)
    (h : stepAction a s = .next s') :
    ∃ op, Balanced s op s' ∧ ∀ i, op = some i → ∃ w, a = .present w ∧ decode s.params w = .ok i := by
  cases a with
  | reset => exact absurd rfl hact
  | micro c => exact ⟨none, microStep_balanced hs h, fun i hi => by cases hi⟩
  | present w =>
    obtain ⟨i, hdec, hexec⟩ | ⟨e, -, hillegal⟩ := stepPresent_next w s s' h
    · refine ⟨some i, exec_balanced hs hexec, fun j hj => ?_⟩
      cases hj
      exact ⟨w, rfl, hdec⟩
    · exact ⟨none, (answerIllegal_quiet hillegal).balanced _, fun i hi => by cases hi⟩

/-- Settles O51: a turn begins with no event and the pending frames of the state before, and what its agent
does balances. -/
theorem framesAreConserved : Obligations.FramesAreConserved := by
  intro s s' t rest l l' hs hin hact hstep hl hl'
  rw [step_of_turn hin] at hstep
  obtain ⟨op, ⟨accepted, delivered, dropped, hperm, hhanded, hone, haccepted, hdropped⟩, hop⟩ :=
    stepAction_balanced (inv_beginTurn hs) hact hstep
  refine ⟨accepted, delivered, dropped, hperm l l' hl hl', hhanded, hone, ?_, ?_⟩
  · obtain hnone | ⟨f, hf, hon, hrx⟩ := haccepted
    · exact .inl hnone
    · exact .inr ⟨f, hf, hon, hop _ hrx⟩
  · obtain hnone | ⟨c, hclear⟩ | hoverflow := hdropped
    · exact .inl hnone
    · exact .inr (.inl ⟨c, hop _ hclear⟩)
    · exact .inr (.inr hoverflow)

end Sys2Proof.Machine
end

section
/-! What rules R30 and R57 call unobservable stays unobservable (`spec/20_memory.md` section 3): two states that
show the same view take the same steps and show the same view again. -/

namespace Sys2Proof.Machine

open Sys2Proof

/-! ## The view under the updates of the state -/

theorem SameWaiter.waitExpired {w v : Waiter} (h : SameWaiter w v) (hbusy : w.phase ≠ .idle) (now : U64) :
    waitExpired w now = waitExpired v now := by
  unfold Machine.waitExpired
  cases hinf : w.inf with
  | true => rw [← h.inf hbusy, hinf]; rfl
  | false => rw [← h.inf hbusy, hinf, h.timeout hbusy hinf, h.start hbusy]

/-- The wait goes to another phase; into `Idle`, or from a phase in which its registers are read. -/
theorem SameWaiter.withPhase {w v : Waiter} (h : SameWaiter w v) (hbusy : w.phase ≠ .idle) (ph : Phase)
    (m n : Nat) : SameWaiter { w with phase := ph, slept := m } { v with phase := ph, slept := n } where
  phase := rfl
  wantId _ := h.wantId hbusy
  inf _ := h.inf hbusy
  start _ := h.start hbusy
  timeout _ := h.timeout hbusy

namespace SameView

variable {s t : State}

theorem waiter (h : SameView s t) {c : Nat} {w : Waiter} (hw : s.waiters[c]? = some w) :
    ∃ v, t.waiters[c]? = some v ∧ SameWaiter w v := by
  have hlt : c < t.waiters.length := h.waitersLen ▸ (List.getElem?_eq_some_iff.1 hw).1
  have hv := List.getElem?_eq_getElem hlt
  exact ⟨_, hv, h.waiters c w _ hw hv⟩

theorem emit (h : SameView s t) (e : Event) : SameView (emit e s) (emit e t) :=
  { h with out := congrArg (· ++ [e]) h.out }

theorem respond (h : SameView s t) (c : Nat) (st : Status) (v : U64) (d : Option Nat) :
    SameView (respond c st v d s) (respond c st v d t) := h.emit _

theorem kRespond (h : SameView s t) (st : Status) : SameView (kRespond st s) (kRespond st t) := h.emit _

theorem lockRelease (h : SameView s t) : SameView (lockRelease s) (lockRelease t) :=
  { h with lock := rfl, lockCross := rfl }

theorem drawNext (h : SameView s t) : SameView (drawNext s) (drawNext t) := { h with }

theorem setWaiter (h : SameView s t) (c : Nat) {w v : Waiter} (hwv : SameWaiter w v) :
    SameView (setWaiter c w s) (setWaiter c v t) :=
  { h with
    waitersLen := by simp [h.waitersLen]
    waiters := fun d x y hx hy => by
      rw [setWaiter_waiters, List.getElem?_set] at hx hy
      by_cases hcd : c = d
      · rw [if_pos hcd] at hx hy
        split_ifs at hx hy
        cases hx
        cases hy
        exact hwv
      · rw [if_neg hcd] at hx hy
        exact h.waiters d x y hx hy }

/-- The ring changes, and holds the same pending frames in both states. -/
theorem of_ring (h : SameView s t) {m m' : Memory} {hd hd' tl tl' : Nat}
    (hpending : pendingSeq { s with slots := m, head := hd, tail := tl } =
      pendingSeq { t with slots := m', head := hd', tail := tl' }) :
    SameView { s with slots := m, head := hd, tail := tl }
      { t with slots := m', head := hd', tail := tl' } :=
  { h with pending := hpending }

theorem goOffline (h : SameView s t) : SameView (goOffline s) (goOffline t) := { h with online := rfl }

theorem defer (h : SameView s t) (f : Frame) :
    SameView { s with pendingFrame := f.enc, pendingValid := true }
      { t with pendingFrame := f.enc, pendingValid := true } :=
  { h with pendingValid := rfl, pendingFrame := fun _ => rfl }

theorem withKCross (h : SameView s t) (k : KCross) :
    SameView { s with kCross := k } { t with kCross := k } := { h with kCross := rfl }

/-- The frame flushed is `pending_frame` while `pending_valid = 1`, when both states hold the same one. -/
theorem goOnline (h : SameView s t) (k : U64) : SameView (goOnline k s) (goOnline k t) := by
  have hout : (Machine.goOnline k s).out = (Machine.goOnline k t).out := by
    rw [goOnline_eq, goOnline_eq]
    cases hvalid : s.pendingValid with
    | false => simp [← h.pendingValid, hvalid, h.out]
    | true => simp [← h.pendingValid, hvalid, h.out, h.pendingFrame hvalid]
  rw [goOnline_eq] at hout ⊢
  rw [goOnline_eq] at hout ⊢
  exact { h with
    online := rfl
    pendingValid := rfl
    pendingFrame := fun hvalid => absurd hvalid Bool.false_ne_true
    xportWritten := rfl
    xport := fun _ => rfl
    out := hout }

theorem idleStep (h : SameView s t) : SameView (idleStep s) (idleStep t) := { h with out := rfl }

theorem beginTurn (h : SameView s t) (turn : Turn) (rest : List Turn) :
    SameView (beginTurn turn rest s) (beginTurn turn rest t) :=
  { h with
    now := congrArg (clockRead · turn.clock) h.now
    inputs := rfl
    out := rfl }

/-! ## What the view determines -/

/-- The two rings hold one list of frames. -/
theorem exists_pendingSeq (h : SameView s t) (hs : RingInv s) :
    ∃ l, pendingSeq s = .ok l ∧ pendingSeq t = .ok l := by
  obtain ⟨l, hl⟩ := hs.exists_pendingSeq
  exact ⟨l, hl, h.pending ▸ hl⟩

theorem count (h : SameView s t) (hs : RingInv s) : s.count = t.count := by
  obtain ⟨l, hl, hl'⟩ := h.exists_pendingSeq hs
  rw [← length_of_pendingSeq hl, length_of_pendingSeq hl']

theorem full (h : SameView s t) (hs : RingInv s) : s.full = t.full := by
  unfold State.full
  rw [h.count hs, h.params]

theorem empty (h : SameView s t) (hs : RingInv s) (ht : RingInv t) : s.empty = t.empty := by
  have hzero : s.head = s.tail ↔ t.head = t.tail := by
    rw [← count_eq_zero_iff hs.tailLt, ← count_eq_zero_iff ht.tailLt, h.count hs]
  unfold State.empty
  simp only [hzero]

theorem statusView (h : SameView s t) (hs : RingInv s) (ht : RingInv t) : statusView s = statusView t := by
  unfold Machine.statusView
  rw [h.count hs, h.full hs, h.empty hs ht, h.pendingValid, h.online]

/-- Reset keeps the parameters, the clock and the turns to come, and the view holds no more. -/
theorem resetBlock (h : SameView s t) : SameView (resetBlock s) (resetBlock t) := by
  have hreset : Machine.resetBlock s = { Machine.resetBlock t with draws := s.draws } := by
    unfold Machine.resetBlock
    rw [h.params, h.now, h.inputs]
  rw [hreset]
  exact {
    params := rfl, pending := rfl, online := rfl, pendingValid := rfl, pendingFrame := fun _ => rfl
    xportWritten := rfl, xport := fun _ => rfl, lock := rfl, kCross := rfl, lockCross := rfl
    waitersLen := rfl
    waiters := fun c w v hw hv => by
      cases hw.symm.trans hv
      exact ⟨rfl, fun _ => rfl, fun _ => rfl, fun _ => rfl, fun _ _ => rfl⟩
    now := rfl, inputs := rfl, out := rfl }

/-- The ready outputs and `RX_HANDLE` (rules R66, R75). -/
theorem ports (h : SameView s t) :
    pReady s = pReady t ∧ kReady s = kReady t ∧ rxHandle s = rxHandle t ∧ ∀ c, cReady s c = cReady t c := by
  refine ⟨h.online, ?_, ?_, fun c => ?_⟩
  · unfold kReady kReq kAck
    rw [h.kCross]
  · unfold rxHandle
    rw [← h.xportWritten]
    split_ifs with hwritten
    · rw [h.xport hwritten]
    · rfl
  · unfold cReady
    cases hw : s.waiters[c]? with
    | none =>
      have hnone : t.waiters[c]? = none := by
        rw [List.getElem?_eq_none_iff] at hw ⊢
        rw [← h.waitersLen]
        exact hw
      rw [hnone]
    | some w =>
      obtain ⟨v, hv, hwv⟩ := h.waiter hw
      rw [hv]
      simp only [hwv.phase]

end SameView

/-! ## The bodies under the lock -/

/-- Two bodies succeed with one result and leave states with the same view. -/
def SameResult {α : Type} (o o' : Except Fault (α × State)) : Prop :=
  ∃ r s1 t1, o = .ok (r, s1) ∧ o' = .ok (r, t1) ∧ SameView s1 t1

section Bodies

variable {s t : State} (hs : RingInv s) (ht : RingInv t) (hst : SameView s t)

include hs hst

theorem sameResult_peek (P : Frame → Bool) : SameResult (peekMatching P s) (peekMatching P t) := by
  obtain ⟨l, hl, hl'⟩ := hst.exists_pendingSeq hs
  exact ⟨_, s, t, peekMatching_list hl, peekMatching_list hl', hst⟩

include ht

theorem sameResult_popAtPos (i : Nat) : SameResult (popAtPos i s) (popAtPos i t) := by
  obtain ⟨l, hl, hl'⟩ := hst.exists_pendingSeq hs
  cases hi : l[i]? with
  | none =>
    have hout : s.count ≤ i := length_of_pendingSeq hl ▸ List.getElem?_eq_none_iff.1 hi
    exact ⟨none, s, t, popAtPos_out_of_range hout, popAtPos_out_of_range (hst.count hs ▸ hout), hst⟩
  | some f =>
    obtain ⟨s1, hpop, hs1⟩ := popAtPos_list hs hl hi
    obtain ⟨t1, hpop', ht1⟩ := popAtPos_list ht hl' hi
    refine ⟨some f, s1, t1, hpop, hpop', ?_⟩
    obtain ⟨m, k, rfl⟩ := popAtPos_frame hpop
    obtain ⟨m', k', rfl⟩ := popAtPos_frame hpop'
    exact hst.of_ring (hs1.trans ht1.symm)

theorem sameResult_scanBody (id : U64) : SameResult (scanBody id s) (scanBody id t) := by
  obtain ⟨l, hl, hl'⟩ := hst.exists_pendingSeq hs
  obtain ⟨s1, hscan, hs1⟩ := scanBody_list (id := id) hs hl
  obtain ⟨t1, hscan', ht1⟩ := scanBody_list (id := id) ht hl'
  refine ⟨_, s1, t1, hscan, hscan', ?_⟩
  obtain ⟨m, k, rfl⟩ := scanBody_frame hscan
  obtain ⟨m', k', rfl⟩ := scanBody_frame hscan'
  exact hst.of_ring (hs1.trans ht1.symm)

theorem sameResult_push {f : Frame} (hf : f.WF s.params) : SameResult (push f s) (push f t) := by
  obtain ⟨l, hl, hl'⟩ := hst.exists_pendingSeq hs
  obtain ⟨s1, hpush, hs1⟩ := push_list hs hf hl
  obtain ⟨t1, hpush', ht1⟩ := push_list ht (hst.params ▸ hf) hl'
  rw [← hst.full hs] at hpush'
  refine ⟨_, s1, t1, hpush, hpush', ?_⟩
  have hkept : keptByPush t l = keptByPush s l := by
    unfold keptByPush
    rw [hst.full hs]
  rw [hkept] at ht1
  obtain ⟨m, k, rfl⟩ := push_frame hpush
  obtain ⟨m', k', rfl⟩ := push_frame hpush'
  exact hst.of_ring (hs1.trans ht1.symm)

theorem sameResult_clear : SameResult (.ok ((), clearRing s)) (.ok ((), clearRing t)) :=
  ⟨_, _, _, rfl, rfl, hst.of_ring ((pendingSeq_clearRing hs).trans (pendingSeq_clearRing ht).symm)⟩

theorem sameResult_status : SameResult (.ok (statusView s, s)) (.ok (statusView t, t)) :=
  ⟨_, s, t, rfl, by rw [hst.statusView hs ht], hst⟩

end Bodies

theorem sameResult_goOffline {s t : State} (hst : SameView s t) :
    SameResult (.ok ((), goOffline s)) (.ok ((), goOffline t)) :=
  ⟨_, _, _, rfl, rfl, hst.goOffline⟩

/-- A frame transmitted online carries `xport`, which has been written then (rules R30, R134). -/
theorem sameResult_sendBody {s t : State} (hst : SameView s t)
    (hwritten : s.online = true → s.xportWritten = true) (f : Frame) :
    SameResult (.ok (sendBody f s)) (.ok (sendBody f t)) := by
  cases hon : s.online with
  | true =>
    rw [sendBody_online hon, sendBody_online (hst.online ▸ hon)]
    refine ⟨_, _, _, rfl, rfl, ?_⟩
    unfold emitTx
    rw [hst.xport (hwritten hon)]
    exact hst.emit _
  | false =>
    rw [sendBody_offline hon, sendBody_offline (hst.online ▸ hon)]
    exact ⟨_, _, _, rfl, rfl, hst.defer f⟩

theorem sameResult_reconnect {s t : State} (hst : SameView s t) (h : U64) :
    SameResult (.ok (kPerform (kLatch h s))) (.ok (kPerform (kLatch h t))) := by
  cases hon : s.online with
  | true =>
    rw [kPerform_online hon, kPerform_online (hst.online ▸ hon)]
    exact ⟨_, _, _, rfl, rfl, hst.withKCross _⟩
  | false =>
    rw [kPerform_offline hon, kPerform_offline (hst.online ▸ hon)]
    exact ⟨_, _, _, rfl, rfl, (hst.goOnline h).withKCross _⟩

/-! ## The simulation -/

/-- Where the first answers a next state, so does the second, with the same view. -/
def Simulates (o o' : Host.Outcome State Fault Refusal) : Prop :=
  ∀ s', o = .next s' → ∃ t', o' = .next t' ∧ SameView s' t'

theorem Simulates.next {s t : State} (h : SameView s t) : Simulates (.next s) (.next t) := by
  intro s' hs'
  cases hs'
  exact ⟨t, rfl, h⟩

theorem onPort_simulates {s t : State} (hst : SameView s t) {c : Nat}
    {body body' : Waiter → Host.Outcome State Fault Refusal}
    (hbody : ∀ w v, Simulates (body w) (body' v)) : Simulates (onPort c s body) (onPort c t body') := by
  intro s' h
  obtain ⟨w, hw, hcase⟩ := onPort_next c s s' body h
  obtain ⟨v, hv, hwv⟩ := hst.waiter hw
  obtain ⟨hbusy, rfl⟩ | ⟨hidle, hb⟩ := hcase
  · exact ⟨t, onPort_busy c t v body' hv (hwv.phase ▸ hbusy), hst⟩
  · rw [onPort_ready c t v body' hv (hwv.phase ▸ hidle)]
    exact hbody w v s' hb

theorem onProducer_simulates {s t : State} (hst : SameView s t)
    {body body' : Host.Outcome State Fault Refusal} (hbody : Simulates body body') :
    Simulates (onProducer s body) (onProducer t body') := by
  unfold onProducer
  rw [hst.ports.1]
  split_ifs
  · exact hbody
  · exact .next hst

theorem onController_simulates {s t : State} (hst : SameView s t)
    {body body' : Host.Outcome State Fault Refusal} (hbody : Simulates body body') :
    Simulates (onController s body) (onController t body') := by
  obtain ⟨-, hready, -⟩ := hst.ports
  unfold onController
  rw [hready]
  split_ifs
  · exact hbody
  · exact .next hst

theorem withFrame_simulates {s t : State} (hst : SameView s t) {f : Frame}
    {body body' : Host.Outcome State Fault Refusal} (hbody : f.WF s.params → Simulates body body') :
    Simulates (withFrame f s body) (withFrame f t body') := by
  intro s' h
  obtain ⟨hf, hb⟩ := withFrame_next f s s' body h
  rw [withFrame_wf (hst.params ▸ hf)]
  exact hbody hf s' hb

theorem withLock_simulates {α : Type} {s t : State} (hfree : s.lock = .free) (hst : SameView s t) {a : Agent}
    {body : State → Except Fault (α × State)} (hign : IgnoresLock body)
    (hbody : SameResult (body s) (body t)) {after after' : α → State → Host.Outcome State Fault Refusal}
    (hafter : ∀ r s1 t1, SameView s1 t1 → Simulates (after r s1) (after' r t1)) :
    Simulates (withLock a s body after) (withLock a t body after') := by
  obtain ⟨r, s1, t1, hr, hr', hview⟩ := hbody
  rw [withLock_run hign hfree hr, withLock_run hign (hst.lock ▸ hfree) hr']
  exact hafter r _ _ hview.lockRelease

theorem exec_simulates {s t : State} (hs : Inv s) (ht : Inv t) (hst : SameView s t) (i : Instr) :
    Simulates (exec i s) (exec i t) := by
  have hfree := hs.lockFree
  cases i with
  | nop c => exact onPort_simulates hst fun _ _ => .next (hst.respond _ _ _ _)
  | peek c id =>
    exact onPort_simulates hst fun _ _ => withLock_simulates hfree hst (ignoresLock_peekMatching _)
      (sameResult_peek hs.ring hst _) fun r s1 t1 h1 => .next (by cases r <;> exact h1.respond _ _ _ _)
  | popAt c a =>
    exact onPort_simulates hst fun _ _ => withLock_simulates hfree hst (ignoresLock_popAtPos _)
      (sameResult_popAtPos hs.ring ht.ring hst _) fun r s1 t1 h1 =>
        .next (by cases r <;> exact h1.respond _ _ _ _)
  | clear c =>
    exact onPort_simulates hst fun _ _ => withLock_simulates hfree hst ignoresLock_clear
      (sameResult_clear hs.ring ht.ring hst) fun _ _ _ h1 => .next (h1.respond _ _ _ _)
  | waitFor c id tm =>
    exact onPort_simulates hst fun _ _ => .next (hst.setWaiter c
      ⟨rfl, fun _ => rfl, fun _ => rfl, fun _ => hst.now, fun _ _ => rfl⟩)
  | waitForever c id =>
    exact onPort_simulates hst fun _ _ => .next (SameView.drawNext (hst.setWaiter c
      ⟨rfl, fun _ => rfl, fun _ => rfl, fun _ => hst.now, fun _ hinf => absurd hinf.symm Bool.false_ne_true⟩))
  | send c f =>
    exact onPort_simulates hst fun _ _ => withFrame_simulates hst fun _ =>
      withLock_simulates hfree hst (ignoresLock_send f) (sameResult_sendBody hst hs.onlineWritten f)
        fun _ _ _ h1 => .next (h1.respond _ _ _ _)
  | status c =>
    exact onPort_simulates hst fun _ _ => withLock_simulates hfree hst ignoresLock_status
      (sameResult_status hs.ring ht.ring hst) fun _ _ _ h1 => .next (h1.respond _ _ _ _)
  | rxFrame f =>
    exact onProducer_simulates hst (withFrame_simulates hst fun hf =>
      withLock_simulates hfree hst (ignoresLock_push f) (sameResult_push hs.ring ht.ring hst hf)
        fun r _ _ h1 => .next (by cases r; exacts [h1.emit _, h1]))
  | rxError =>
    exact onProducer_simulates hst (withLock_simulates hfree hst ignoresLock_goOffline
      (sameResult_goOffline hst) fun _ _ _ h1 => .next h1)
  | knop => exact onController_simulates hst (.next (hst.kRespond _))
  | reconnect h =>
    refine onController_simulates hst ?_
    rw [hst.params]
    split_ifs
    · exact withLock_simulates hfree hst (ignoresLock_reconnect h) (sameResult_reconnect hst h)
        fun r _ _ h1 => .next ((h1.withKCross .idle).kRespond r)
    · exact .next (hst.kRespond _)

section MicroSteps

variable {s t : State} (hst : SameView s t) {c : Nat} {w v : Waiter} (hwv : SameWaiter w v)

include hst hwv

theorem wScan_simulates (hs : Inv s) (ht : Inv t) (hbusy : w.phase ≠ .idle) :
    Simulates (wScan c w s) (wScan c v t) := by
  unfold wScan
  rw [← hwv.wantId hbusy]
  refine withLock_simulates hs.lockFree hst (ignoresLock_scanBody _)
    (sameResult_scanBody hs.ring ht.ring hst _) fun r s1 t1 h1 => .next ?_
  cases r with
  | none => exact h1.setWaiter c (hwv.withPhase hbusy _ _ _)
  | some f => exact (h1.respond _ _ _ _).setWaiter c (hwv.withPhase hbusy _ _ _)

theorem wCheck_simulates (hbusy : w.phase ≠ .idle) : Simulates (wCheck c w s) (wCheck c v t) := by
  unfold wCheck
  rw [hst.now, hwv.waitExpired hbusy]
  split_ifs
  · exact .next ((hst.respond _ _ _ _).setWaiter c (hwv.withPhase hbusy _ _ _))
  · exact .next (hst.setWaiter c (hwv.withPhase hbusy _ _ _))

theorem wWake_simulates (hbusy : w.phase ≠ .idle) : Simulates (wWake c w s) (wWake c v t) :=
  .next (SameView.drawNext (hst.setWaiter c (hwv.withPhase hbusy _ _ _)))

end MicroSteps

theorem microStep_simulates {s t : State} (hs : Inv s) (ht : Inv t) (hst : SameView s t) (c : Nat) :
    Simulates (microStep c s) (microStep c t) := by
  cases hw : s.waiters[c]? with
  | none =>
    rw [microStep_absent hw]
    intro s' h
    cases h
  | some w =>
    obtain ⟨v, hv, hwv⟩ := hst.waiter hw
    unfold microStep
    rw [hw, hv]
    simp only [← hwv.phase]
    cases hphase : w.phase with
    | idle => exact .next hst
    | scan => exact wScan_simulates hst hwv hs ht (by rw [hphase]; decide)
    | check => exact wCheck_simulates hst hwv (by rw [hphase]; decide)
    | sleep => exact wWake_simulates hst hwv (by rw [hphase]; decide)

theorem answerIllegal_simulates {s t : State} (hst : SameView s t) (w : PortWords) (e : DecodeError) :
    Simulates (answerIllegal w e s) (answerIllegal w e t) := by
  unfold answerIllegal
  split
  · intro s' h
    cases h
  · exact onPort_simulates hst fun _ _ => .next (hst.respond _ _ _ _)
  · exact onController_simulates hst (.next (hst.kRespond _))
  · exact .next hst

theorem stepAction_simulates {s t : State} (hs : Inv s) (ht : Inv t) (hst : SameView s t) (a : Action) :
    Simulates (stepAction a s) (stepAction a t) := by
  cases a with
  | reset => exact .next hst.resetBlock
  | micro c => exact microStep_simulates hs ht hst c
  | present w =>
    show Simulates (stepPresent w s) (stepPresent w t)
    unfold stepPresent
    rw [← hst.params]
    cases decode s.params w with
    | ok i => exact exec_simulates hs ht hst i
    | error e => exact answerIllegal_simulates hst w e

/-- Settles O16: the same view is a simulation between invariant states. -/
theorem unobservableStateStaysUnobservable : Obligations.UnobservableStateStaysUnobservable := by
  intro s t s' hs ht hst hstep
  refine ⟨hst.ports, ?_⟩
  cases hin : s.inputs with
  | nil =>
    rw [step_of_no_turn hin] at hstep
    rw [step_of_no_turn (hst.inputs ▸ hin)]
    exact Simulates.next hst.idleStep s' hstep
  | cons turn rest =>
    rw [step_of_turn hin] at hstep
    rw [step_of_turn (hst.inputs ▸ hin)]
    exact stepAction_simulates (inv_beginTurn hs) (inv_beginTurn ht) (hst.beginTurn turn rest) turn.act
      s' hstep

end Sys2Proof.Machine
end

section
/-! Frames as bytes and as the number on a frame-wide bus (`spec/30_encoding.md` section 1): where each field
stands, and that nothing is lost either way. -/

namespace Sys2Proof

/-! ## The bytes of a number -/

theorem pow256_eq (n : Nat) : 256 ^ n = 2 ^ (8 * n) := (Nat.pow_mul 2 8 n).symm

/-- Byte `j` of a number is its bits `8j+7 .. 8j`. -/
theorem leBytes_getElem? {n j : Nat} (hj : j < n) (v : Nat) :
    (leBytes n v)[j]? = some (BitVec.ofNat 8 (v / 2 ^ (8 * j))) := by
  induction n generalizing j v with
  | zero => omega
  | succ n ih =>
    cases j with
    | zero => simp [leBytes]
    | succ j =>
      have hdiv : v / 256 / 2 ^ (8 * j) = v / 2 ^ (8 * (j + 1)) := by
        rw [Nat.div_div_eq_div_mul, ← pow256_eq, ← pow256_eq, Nat.pow_succ']
      rw [leBytes, List.getElem?_cons_succ, ih (by omega), hdiv]

theorem leBytes_append_getElem? {j : Nat} (hj : j < 8) (v : U64) (bs : List Byte) :
    (leBytes 8 v.toNat ++ bs)[j]? = some (v.extractLsb' (8 * j) 8) := by
  have hbyte : BitVec.ofNat 8 (v.toNat / 2 ^ (8 * j)) = v.extractLsb' (8 * j) 8 := by
    rw [← Nat.shiftRight_eq_div_pow]
    rfl
  rw [List.getElem?_append_left (by simpa using hj), leBytes_getElem? hj, hbyte]

theorem leBytes_append_getElem?_add (n v : Nat) (bs : List Byte) (k : Nat) :
    (leBytes n v ++ bs)[n + k]? = bs[k]? := by
  rw [List.getElem?_append_right (by simp), leBytes_length, Nat.add_sub_cancel_left]

/-! ## The wire string -/

/-- The fields of the wire string, each 8 bytes after the one before (rules R60, R61). -/
theorem enc_getElem?_field {j : Nat} (hj : j < 8) (f : Frame) :
    f.enc[j]? = some (f.commandId.extractLsb' (8 * j) 8) ∧
    f.enc[8 + j]? = some (f.arg0.extractLsb' (8 * j) 8) ∧
    f.enc[16 + j]? = some (f.arg1.extractLsb' (8 * j) 8) ∧
    f.enc[24 + j]? = some (f.arg2.extractLsb' (8 * j) 8) := by
  have h16 : 16 + j = 8 + (8 + j) := by omega
  have h24 : 24 + j = 8 + (8 + (8 + j)) := by omega
  simp only [Frame.enc, h16, h24, leBytes_append_getElem?_add, leBytes_append_getElem? hj, and_self]

/-- The payload follows the four fields (rules R60, R61). -/
theorem enc_getElem?_payload (f : Frame) (j : Nat) : f.enc[32 + j]? = f.payload[j]? := by
  have h32 : 32 + j = 8 + (8 + (8 + (8 + j))) := by omega
  simp only [Frame.enc, h32, leBytes_append_getElem?_add]

/-- The bytes of a field read from a string are the bytes it was read from. -/
theorem leBytes_wireField {bs : List Byte} {o : Nat} (h : o + 8 ≤ bs.length) :
    leBytes 8 (wireField bs o).toNat = (bs.drop o).take 8 := by
  have hlen : ((bs.drop o).take 8).length = 8 := by
    rw [List.length_take, List.length_drop]
    omega
  have hvalue : (wireField bs o).toNat = leValue ((bs.drop o).take 8) := by
    have hlt := leValue_lt ((bs.drop o).take 8)
    rw [hlen] at hlt
    exact Nat.mod_eq_of_lt hlt
  calc leBytes 8 (wireField bs o).toNat
      = leBytes ((bs.drop o).take 8).length (leValue ((bs.drop o).take 8)) := by rw [hvalue, hlen]
    _ = (bs.drop o).take 8 := leBytes_leValue _

/-- Written back before what follows it, a field read from a string gives the string from there on. -/
theorem leBytes_wireField_append_drop {bs : List Byte} {o : Nat} (h : o + 8 ≤ bs.length) :
    leBytes 8 (wireField bs o).toNat ++ bs.drop (o + 8) = bs.drop o := by
  rw [leBytes_wireField h, ← List.drop_drop, List.take_append_drop]

/-- `enc` undoes `dec` on every string that holds the four fields (rules R60, R61). -/
theorem Frame.enc_dec {bs : List Byte} (h : 32 ≤ bs.length) : (Frame.dec bs).enc = bs := by
  show leBytes 8 (wireField bs 0).toNat ++ (leBytes 8 (wireField bs 8).toNat ++
    (leBytes 8 (wireField bs 16).toNat ++ (leBytes 8 (wireField bs 24).toNat ++ bs.drop 32))) = bs
  rw [leBytes_wireField_append_drop (o := 24) (by omega), leBytes_wireField_append_drop (o := 16) (by omega),
    leBytes_wireField_append_drop (o := 8) (by omega), leBytes_wireField_append_drop (o := 0) (by omega),
    List.drop_zero]

theorem Frame.dec_wf {p : Params} {bs : List Byte} (h : bs.length = p.frameBytes) : (Frame.dec bs).WF p := by
  show (bs.drop 32).length = p.payloadMax
  rw [List.length_drop, h, Params.frameBytes]
  omega

theorem le_frameBytes (p : Params) : 32 ≤ p.frameBytes := Nat.le_add_right 32 p.payloadMax

/-- Settles O3: the string is taken apart field by field, and `enc` and `dec` undo each other. -/
theorem frameWireFormat : Obligations.FrameWireFormat := by
  refine ⟨fun p f hf => ⟨enc_length_of_wf p f hf, fun j hj => enc_getElem?_field hj f,
    fun j _ => enc_getElem?_payload f j, Frame.dec_enc f⟩, fun p bs hbs => ⟨Frame.dec_wf hbs, ?_⟩⟩
  exact Frame.enc_dec (hbs ▸ le_frameBytes p)

/-! ## The frame-wide bus -/

theorem frameBus_lt {p : Params} {f : Frame} (hf : f.WF p) : frameBus f < 2 ^ p.frameBits := by
  have h := leValue_lt f.enc
  rwa [enc_length_of_wf p f hf, pow256_eq] at h

/-- The bytes on the bus are the wire string (rule R63). -/
theorem leBytes_frameBus {p : Params} {f : Frame} (hf : f.WF p) :
    leBytes p.frameBytes (frameBus f) = f.enc := by
  rw [← enc_length_of_wf p f hf]
  exact leBytes_leValue f.enc

theorem enc_getElem?_frameBus {p : Params} {f : Frame} (hf : f.WF p) {k : Nat} (hk : k < p.frameBytes) :
    f.enc[k]? = some (BitVec.ofNat 8 (frameBus f / 2 ^ (8 * k))) := by
  rw [← leBytes_frameBus hf]
  exact leBytes_getElem? hk _

/-- A 64-bit field takes the low end of the number, what follows it stands above. -/
theorem leValue_leBytes_append (v : U64) (bs : List Byte) :
    leValue (leBytes 8 v.toNat ++ bs) = v.toNat + 2 ^ 64 * leValue bs := by
  have hpow : 256 ^ 8 = 2 ^ 64 := pow256_eq 8
  rw [leValue_append, leBytes_length, leValue_leBytes, hpow, Nat.mod_eq_of_lt v.isLt]

/-- The bus as a number: the fields side by side, `command_id` lowest (rule R63). -/
theorem frameBus_eq (f : Frame) :
    frameBus f = f.commandId.toNat + 2 ^ 64 * (f.arg0.toNat + 2 ^ 64 * (f.arg1.toNat +
      2 ^ 64 * (f.arg2.toNat + 2 ^ 64 * leValue f.payload))) := by
  simp only [frameBus, Frame.enc, leValue_leBytes_append]

theorem eq_ofNat_of_mod {v : U64} {n : Nat} (h : n % 2 ^ 64 = v.toNat) : v = BitVec.ofNat 64 n :=
  BitVec.eq_of_toNat_eq (by rw [BitVec.toNat_ofNat, h])

/-- The fields on the bus, 64 bits each (rule R63). -/
theorem fields_eq_frameBus (f : Frame) :
    f.commandId = BitVec.ofNat 64 (frameBus f) ∧ f.arg0 = BitVec.ofNat 64 (frameBus f / 2 ^ 64) ∧
    f.arg1 = BitVec.ofNat 64 (frameBus f / 2 ^ 128) ∧ f.arg2 = BitVec.ofNat 64 (frameBus f / 2 ^ 192) := by
  have hbus := frameBus_eq f
  have hid := f.commandId.isLt
  have h0 := f.arg0.isLt
  have h1 := f.arg1.isLt
  have h2 := f.arg2.isLt
  refine ⟨eq_ofNat_of_mod ?_, eq_ofNat_of_mod ?_, eq_ofNat_of_mod ?_, eq_ofNat_of_mod ?_⟩ <;> omega

/-- A frame put on the bus is read back (rule R63). -/
theorem busFrame_frameBus {p : Params} {f : Frame} (hf : f.WF p) : busFrame p (frameBus f) = f := by
  rw [busFrame, leBytes_frameBus hf, Frame.dec_enc]

/-- A bus value read as a frame is carried back (rule R63). -/
theorem frameBus_busFrame {p : Params} {bus : Nat} (h : bus < 2 ^ p.frameBits) :
    frameBus (busFrame p bus) = bus := by
  have hlen : 32 ≤ (leBytes p.frameBytes bus).length := by
    rw [leBytes_length]
    exact le_frameBytes p
  rw [frameBus, busFrame, Frame.enc_dec hlen, leValue_leBytes, pow256_eq]
  exact Nat.mod_eq_of_lt h

/-- Only the `FRAME_BITS` wires of the bus carry anything (rule R63). -/
theorem busFrame_congr {p : Params} {d d' : Nat} (h : d' % 2 ^ p.frameBits = d % 2 ^ p.frameBits) :
    busFrame p d' = busFrame p d := by
  unfold Params.frameBits at h
  rw [← pow256_eq] at h
  rw [busFrame, busFrame, ← leBytes_mod _ d', ← leBytes_mod _ d, h]

/-- Settles O4: the bytes on the bus are the wire string, and its number is the fields side by side. -/
theorem frameBusLayout : Obligations.FrameBusLayout := by
  intro p f hf
  obtain ⟨hid, h0, h1, h2⟩ := fields_eq_frameBus f
  refine ⟨frameBus_lt hf, fun k hk => enc_getElem?_frameBus hf hk, hid, h0, h1, h2, fun j hj => ?_,
    fun bus hbus => ⟨busFrame_wf p bus, frameBus_busFrame hbus⟩⟩
  have hk : 32 + j < p.frameBytes := Nat.add_lt_add_left hj 32
  rw [← enc_getElem?_payload f j]
  exact enc_getElem?_frameBus hf hk

end Sys2Proof
end

section
/-! The words of the ports and the decoder (`spec/30_encoding.md` sections 2 to 5). -/

namespace Sys2Proof

/-! ## The fields of the words -/

/-- A field of a word, by the word's number. -/
theorem extractLsb'_eq_of_toNat {n o w : Nat} {x : BitVec n} {y : BitVec w}
    (h : x.toNat / 2 ^ o % 2 ^ w = y.toNat) : x.extractLsb' o w = y := by
  apply BitVec.eq_of_toNat_eq
  rw [BitVec.extractLsb'_toNat, Nat.shiftRight_eq_div_pow, h]

/-! The fields of a consumer request (rule R64). -/

@[simp] theorem reqOp_reqWord (op : BitVec 4) (a : U64) (t : U32) : reqOp (reqWord op a t) = op := by
  have hop := op.isLt
  exact extractLsb'_eq_of_toNat (by rw [reqWord_toNat]; omega)

@[simp] theorem reqRsv_reqWord (op : BitVec 4) (a : U64) (t : U32) : reqRsv (reqWord op a t) = 0 := by
  have hop := op.isLt
  have h0 : (0 : BitVec 4).toNat = 0 := rfl
  exact extractLsb'_eq_of_toNat (by rw [reqWord_toNat]; omega)

@[simp] theorem reqA_reqWord (op : BitVec 4) (a : U64) (t : U32) : reqA (reqWord op a t) = a := by
  have hop := op.isLt
  have ha := a.isLt
  exact extractLsb'_eq_of_toNat (by rw [reqWord_toNat]; omega)

@[simp] theorem reqT_reqWord (op : BitVec 4) (a : U64) (t : U32) : reqT (reqWord op a t) = t := by
  have hop := op.isLt
  have ha := a.isLt
  have ht := t.isLt
  exact extractLsb'_eq_of_toNat (by rw [reqWord_toNat]; omega)

/-- The controller request is `H` above `KOP` (rule R67). -/
@[simp] theorem kReqOp_kReqWord (op : BitVec 2) (h : U64) : kReqOp (kReqWord op h) = op :=
  BitVec.extractLsb'_append_eq_right

@[simp] theorem kReqH_kReqWord (op : BitVec 2) (h : U64) : kReqH (kReqWord op h) = h :=
  BitVec.extractLsb'_append_eq_left

/-- The fields of a consumer response (rule R65). -/
theorem rspWord_fields (st : Status) (v : U64) :
    (rspWord st v).extractLsb' 0 4 = st.code ∧ (rspWord st v).extractLsb' 4 4 = 0 ∧
    (rspWord st v).extractLsb' 8 64 = v := by
  have hword := rspWord_toNat st v
  have hst := st.code.isLt
  have hv := v.isLt
  have h0 : (0 : BitVec 4).toNat = 0 := rfl
  refine ⟨extractLsb'_eq_of_toNat ?_, extractLsb'_eq_of_toNat ?_, extractLsb'_eq_of_toNat ?_⟩ <;> omega

/-- Settles O5, word by word. -/
theorem portWordFields : Obligations.PortWordFields :=
  ⟨fun op a t => ⟨reqOp_reqWord op a t, reqRsv_reqWord op a t, reqA_reqWord op a t, reqT_reqWord op a t⟩,
    fun op h => ⟨kReqOp_kReqWord op h, kReqH_kReqWord op h⟩, rspWord_fields⟩

/-! ## The opcode maps -/

section OpcodeMap

variable {p : Params} {c : Nat} {req : BitVec 104} {d : Nat}

theorem decodeOp_nop (h : reqOp req = 0) : decodeOp p c req d = .ok (.nop c) := by
  simp [decodeOp, h]

theorem decodeOp_peek (h : reqOp req = 1) : decodeOp p c req d = .ok (.peek c (reqA req)) := by
  simp [decodeOp, h]

theorem decodeOp_popAt (h : reqOp req = 2) : decodeOp p c req d = .ok (.popAt c (reqA req)) := by
  simp [decodeOp, h]

theorem decodeOp_clear (h : reqOp req = 3) : decodeOp p c req d = .ok (.clear c) := by
  simp [decodeOp, h]

theorem decodeOp_waitFor (h : reqOp req = 4) :
    decodeOp p c req d = .ok (.waitFor c (reqA req) (reqT req)) := by
  simp [decodeOp, h]

theorem decodeOp_waitForever (h : reqOp req = 5) :
    decodeOp p c req d = .ok (.waitForever c (reqA req)) := by
  simp [decodeOp, h]

theorem decodeOp_send (h : reqOp req = 6) : decodeOp p c req d = .ok (.send c (busFrame p d)) := by
  simp [decodeOp, h]

theorem decodeOp_status (h : reqOp req = 7) : decodeOp p c req d = .ok (.status c) := by
  simp [decodeOp, h]

/-- The opcodes `0x8 .. 0xF` are reserved (rule R74). -/
theorem decodeOp_reserved (h : 8 ≤ (reqOp req).toNat) : decodeOp p c req d = .error .reservedOpcode := by
  unfold decodeOp
  split
  case h_9 => rfl
  all_goals omega

theorem decodeConsumer_present (hc : c < p.numConsumers) (hrsv : reqRsv req = 0) :
    decodeConsumer p c req d = decodeOp p c req d := by
  rw [decodeConsumer, if_pos hc, if_pos hrsv]

end OpcodeMap

section ControllerMap

variable {p : Params} {req : BitVec 66}

theorem decodeController_knop (h : kReqOp req = 0) : decodeController p req = .ok .knop := by
  simp [decodeController, h]

theorem decodeController_reconnect (h : kReqOp req = 1) :
    decodeController p req =
      if handleFits p (kReqH req) then .ok (.reconnect (kReqH req)) else .error .handleBits := by
  simp [decodeController, h]

/-- The controller opcodes 2 and 3 are reserved (rule R74). -/
theorem decodeController_reserved (h : 2 ≤ (kReqOp req).toNat) :
    decodeController p req = .error .reservedControllerOp := by
  unfold decodeController
  split
  case h_3 => rfl
  all_goals omega

end ControllerMap

/-! ## Decoding an encoding -/

theorem decode_reqWord {p : Params} {c : Nat} (hc : c < p.numConsumers) (op : BitVec 4) (a : U64) (t : U32)
    (d : Nat) : decode p (.consumer c (reqWord op a t) d) = decodeOp p c (reqWord op a t) d :=
  decodeConsumer_present hc (reqRsv_reqWord op a t)

/-- Settles O1, operation by operation: the port exists, the opcode picks the row, the row reads back the
operands. -/
theorem decodeOfEncodeIsTheOperation : Obligations.DecodeOfEncodeIsTheOperation := by
  intro p i hwf
  cases i with
  | nop c => rw [encode, decode_reqWord (of_decide_eq_true hwf), decodeOp_nop (reqOp_reqWord _ _ _)]
  | peek c id =>
    rw [encode, decode_reqWord (of_decide_eq_true hwf), decodeOp_peek (reqOp_reqWord _ _ _), reqA_reqWord]
  | popAt c a =>
    rw [encode, decode_reqWord (of_decide_eq_true hwf), decodeOp_popAt (reqOp_reqWord _ _ _), reqA_reqWord]
  | clear c => rw [encode, decode_reqWord (of_decide_eq_true hwf), decodeOp_clear (reqOp_reqWord _ _ _)]
  | waitFor c id t =>
    rw [encode, decode_reqWord (of_decide_eq_true hwf), decodeOp_waitFor (reqOp_reqWord _ _ _),
      reqA_reqWord, reqT_reqWord]
  | waitForever c id =>
    rw [encode, decode_reqWord (of_decide_eq_true hwf), decodeOp_waitForever (reqOp_reqWord _ _ _),
      reqA_reqWord]
  | send c f =>
    obtain ⟨hc, hf⟩ := Bool.and_eq_true_iff.1 hwf
    rw [encode, decode_reqWord (of_decide_eq_true hc), decodeOp_send (reqOp_reqWord _ _ _),
      busFrame_frameBus (of_decide_eq_true hf)]
  | status c => rw [encode, decode_reqWord (of_decide_eq_true hwf), decodeOp_status (reqOp_reqWord _ _ _)]
  | rxFrame f =>
    show Except.ok (Instr.rxFrame (busFrame p (frameBus f))) = _
    rw [busFrame_frameBus (of_decide_eq_true hwf)]
  | rxError => rfl
  | knop => exact decodeController_knop (p := p) (kReqOp_kReqWord 0 0)
  | reconnect h =>
    show decodeController p (kReqWord 1 h) = _
    rw [decodeController_reconnect (kReqOp_kReqWord 1 h), kReqH_kReqWord, if_pos (of_decide_eq_true hwf)]

/-! ## Operands that are not used -/

/-- An opcode names one of the eight operations or is reserved (rules R69, R74). -/
theorem opcode_cases (op : BitVec 4) :
    op = 0 ∨ op = 1 ∨ op = 2 ∨ op = 3 ∨ op = 4 ∨ op = 5 ∨ op = 6 ∨ op = 7 ∨ 8 ≤ op.toNat := by
  revert op
  decide

/-- Two requests with the same opcode, and the same operands where the opcode has any, decode alike
(rule R71). -/
theorem decodeOp_congr {p : Params} {c : Nat} {req req' : BitVec 104} {d d' : Nat}
    (hop : reqOp req' = reqOp req)
    (ha : reqOp req = 1 ∨ reqOp req = 2 ∨ reqOp req = 4 ∨ reqOp req = 5 → reqA req' = reqA req)
    (ht : reqOp req = 4 → reqT req' = reqT req)
    (hd : reqOp req = 6 → d' % 2 ^ p.frameBits = d % 2 ^ p.frameBits) :
    decodeOp p c req' d' = decodeOp p c req d := by
  obtain h | h | h | h | h | h | h | h | h := opcode_cases (reqOp req)
  · rw [decodeOp_nop h, decodeOp_nop (hop.trans h)]
  · rw [decodeOp_peek h, decodeOp_peek (hop.trans h), ha (by simp [h])]
  · rw [decodeOp_popAt h, decodeOp_popAt (hop.trans h), ha (by simp [h])]
  · rw [decodeOp_clear h, decodeOp_clear (hop.trans h)]
  · rw [decodeOp_waitFor h, decodeOp_waitFor (hop.trans h), ha (by simp [h]), ht h]
  · rw [decodeOp_waitForever h, decodeOp_waitForever (hop.trans h), ha (by simp [h])]
  · rw [decodeOp_send h, decodeOp_send (hop.trans h), busFrame_congr (hd h)]
  · rw [decodeOp_status h, decodeOp_status (hop.trans h)]
  · rw [decodeOp_reserved h, decodeOp_reserved (by rwa [hop])]

/-- Settles O6: the port and `RSV` are read alike, and then the row of the opcode decides. -/
theorem unusedOperandsAreIgnored : Obligations.UnusedOperandsAreIgnored := by
  refine ⟨fun p c req req' d d' hop hrsv ha ht hd => ?_, fun p req h => decodeController_knop h,
    fun _ _ => rfl⟩
  show decodeConsumer p c req' d' = decodeConsumer p c req d
  rw [decodeConsumer, decodeConsumer, hrsv, decodeOp_congr hop ha ht hd]

/-! ## Illegal encodings -/

/-- A reserved opcode or a reserved bit on a port that exists stands for no operation (rule R74). -/
theorem decode_consumer_illegal {p : Params} {c : Nat} {req : BitVec 104} (hc : c < p.numConsumers)
    (hbad : 8 ≤ (reqOp req).toNat ∨ reqRsv req ≠ 0) (d : Nat) :
    ∃ e, decode p (.consumer c req d) = .error e ∧ e ≠ .noSuchPort := by
  show ∃ e, decodeConsumer p c req d = .error e ∧ e ≠ .noSuchPort
  by_cases hrsv : reqRsv req = 0
  · have hop : 8 ≤ (reqOp req).toNat := hbad.resolve_right (not_not_intro hrsv)
    exact ⟨.reservedOpcode, by rw [decodeConsumer_present hc hrsv, decodeOp_reserved hop], by decide⟩
  · exact ⟨.reservedBits, by rw [decodeConsumer, if_pos hc, if_neg hrsv], by decide⟩

/-- A reserved controller opcode, or a handle with a bit at or above `HANDLE_BITS`, stands for no operation
(rule R74). -/
theorem decode_controller_illegal {p : Params} {req : BitVec 66}
    (hbad : kReqOp req = 2 ∨ kReqOp req = 3 ∨ (kReqOp req = 1 ∧ 2 ^ p.handleBits ≤ (kReqH req).toNat)) :
    ∃ e, decode p (.controller req) = .error e := by
  show ∃ e, decodeController p req = .error e
  obtain h | h | ⟨h, hwide⟩ := hbad
  · exact ⟨.reservedControllerOp, decodeController_reserved (by rw [h]; decide)⟩
  · exact ⟨.reservedControllerOp, decodeController_reserved (by rw [h]; decide)⟩
  · exact ⟨.handleBits, by rw [decodeController_reconnect h, if_neg (Nat.not_lt.2 hwide)]⟩

end Sys2Proof

namespace Sys2Proof.Machine

open Sys2Proof

theorem step_present_illegal {s : State} {t : Turn} {rest : List Turn} {w : PortWords} {e : DecodeError}
    (hin : s.inputs = t :: rest) (hact : t.act = .present w) (hdec : decode s.params w = .error e) :
    step s = answerIllegal w e (beginTurn t rest s) := by
  have hdec' : decode (beginTurn t rest s).params w = .error e := by rwa [beginTurn_params]
  rw [step_of_turn hin, hact]
  show stepPresent w (beginTurn t rest s) = _
  unfold stepPresent
  rw [hdec']

theorem answerIllegal_consumer {e : DecodeError} (he : e ≠ .noSuchPort) (c : Nat) (req : BitVec 104) (d : Nat)
    (s : State) : answerIllegal (.consumer c req d) e s =
      onPort c s fun _ => .next (respond c .illegalOp 0 none s) := by
  cases e with
  | noSuchPort => exact absurd rfl he
  | reservedOpcode | reservedBits | reservedControllerOp | handleBits | noEvent | reservedEvent => rfl

theorem onController_ready {s : State} (h : kReady s = true) (body : Host.Outcome State Fault Refusal) :
    onController s body = body := if_pos h

theorem onController_busy {s : State} (h : kReady s = false) (body : Host.Outcome State Fault Refusal) :
    onController s body = .next s := if_neg (by simp [h])

/-- An illegal request on a consumer port that exists asks the port and is answered ILLEGAL_OP (rules R74,
R75). -/
theorem step_consumer_illegal {s : State} {t : Turn} {rest : List Turn} {c : Nat} {req : BitVec 104} {d : Nat}
    (hin : s.inputs = t :: rest) (hact : t.act = .present (.consumer c req d)) (hc : c < s.params.numConsumers)
    (hbad : 8 ≤ (reqOp req).toNat ∨ reqRsv req ≠ 0) :
    step s = onPort c (beginTurn t rest s)
      fun _ => .next (respond c .illegalOp 0 none (beginTurn t rest s)) := by
  obtain ⟨e, hdec, he⟩ := decode_consumer_illegal hc hbad d
  rw [step_present_illegal hin hact hdec, answerIllegal_consumer he]

/-- An illegal request on the controller port asks the port and is answered ILLEGAL_OP (rules R74, R75). -/
theorem step_controller_illegal {s : State} {t : Turn} {rest : List Turn} {req : BitVec 66}
    (hin : s.inputs = t :: rest) (hact : t.act = .present (.controller req))
    (hbad : kReqOp req = 2 ∨ kReqOp req = 3 ∨
      (kReqOp req = 1 ∧ 2 ^ s.params.handleBits ≤ (kReqH req).toNat)) :
    step s = onController (beginTurn t rest s) (.next (kRespond .illegalOp (beginTurn t rest s))) := by
  obtain ⟨e, hdec⟩ := decode_controller_illegal hbad
  exact step_present_illegal hin hact hdec

/-- Settles O18: the words decode to no operation, and then the readiness of the port decides. -/
theorem illegalEncodingsChangeNothing : Obligations.IllegalEncodingsChangeNothing := by
  rintro s t rest s0 hin rfl
  refine ⟨fun c req d hact hc hready hbad => ?_, fun req hact hready hbad => ?_,
    fun d hact => step_present_illegal hin hact rfl, fun d hact => step_present_illegal hin hact rfl,
    fun c req d ph hact hc hphase hbusy hbad => ?_, fun req hact hbusy hbad => ?_⟩
  · obtain ⟨w, hw, hidle⟩ := phaseOf_eq_some.1 hready
    exact (step_consumer_illegal hin hact hc hbad).trans (onPort_ready c _ w _ hw hidle)
  · exact (step_controller_illegal hin hact hbad).trans (onController_ready (s := beginTurn t rest s) hready _)
  · obtain ⟨w, hw, rfl⟩ := phaseOf_eq_some.1 hphase
    exact (step_consumer_illegal hin hact hc hbad).trans (onPort_busy c _ w _ hw hbusy)
  · exact (step_controller_illegal hin hact hbad).trans (onController_busy (s := beginTurn t rest s) hbusy _)

end Sys2Proof.Machine
end

section
/-! The views the ports give of the block: the status view (`spec/30_encoding.md` rule R73) and the handle
output (rule R66). -/

namespace Sys2Proof.Machine

open Sys2Proof

/-! ## The status view -/

/-- A bit of a word, by the word's number. -/
theorem getLsbD_eq_of_toNat {n i : Nat} {x : BitVec n} {b : Bool} (h : x.toNat / 2 ^ i % 2 = b.toNat) :
    x.getLsbD i = b := by
  rw [← BitVec.testBit_toNat, Nat.testBit_eq_decide_div_mod_eq, h]
  cases b <;> rfl

/-- Settles O11: the fields side by side, each cut out of the view's number. -/
theorem statusViewFields : Obligations.StatusViewFields := by
  intro s
  have hview := statusView_toNat s
  have hcount := (zextOr 32 Config.wideCount s.count).isLt
  have hfull := s.full.toNat_lt
  have hempty := s.empty.toNat_lt
  have hvalid := s.pendingValid.toNat_lt
  have honline := s.online.toNat_lt
  have h4 : (0 : BitVec 4).toNat = 0 := rfl
  have h24 : (0 : BitVec 24).toNat = 0 := rfl
  have hfield : (statusView s).extractLsb' 8 32 = zextOr 32 Config.wideCount s.count :=
    extractLsb'_eq_of_toNat (by omega)
  refine ⟨getLsbD_eq_of_toNat ?_, getLsbD_eq_of_toNat ?_, getLsbD_eq_of_toNat ?_, getLsbD_eq_of_toNat ?_,
    extractLsb'_eq_of_toNat ?_, fun h => hfield.trans (zextOr_of_lt 32 _ _ h),
    extractLsb'_eq_of_toNat ?_⟩ <;> omega

/-! ## The handle output -/

theorem SameRegisters.rxHandle {s t : State} (h : SameRegisters s t) : rxHandle t = rxHandle s := by
  obtain ⟨_, _, _, rfl, -⟩ := h
  rfl

/-- `xport` and `RX_HANDLE` are written only by a RECONNECT taken offline, which puts its handle on both
(rules R19, R66, R125). -/
theorem OpChange.handle {s u : State} {i : Instr} (h : OpChange s i u) :
    (u.xport = s.xport ∧ rxHandle u = rxHandle s) ∨
    (s.online = false ∧ ∃ k, i = .reconnect k ∧ u.xport = k ∧ rxHandle u = some k) := by
  cases h with
  | unchanged | clear | startWait | defer | rxError => exact .inl ⟨rfl, rfl⟩
  | popAt hpop =>
    obtain ⟨m, k, rfl⟩ := popAtPos_frame hpop
    exact .inl ⟨rfl, rfl⟩
  | rxFrame _ _ hpush =>
    obtain ⟨m, k, rfl⟩ := push_frame hpush
    exact .inl ⟨rfl, rfl⟩
  | reconnect _ hoff =>
    exact .inr ⟨hoff, _, rfl, by rw [goOnline_eq], rxHandle_goOnline _ s⟩

theorem MicroChange.handle {s u : State} {c : Nat} (h : MicroChange s c u) :
    u.xport = s.xport ∧ rxHandle u = rxHandle s := by
  obtain ⟨m, k, ws, rfl⟩ := h.frame
  exact ⟨rfl, rfl⟩

/-- Settles O58: online `xport` has been written, and of the changes a turn can make only that of RECONNECT
reaches the handle. -/
theorem onlyReconnectWritesTheHandle : Obligations.OnlyReconnectWritesTheHandle := by
  refine ⟨fun s => ⟨rxHandle_written s, fun hs hon => rxHandle_written s (hs.onlineWritten hon)⟩, ?_⟩
  intro s s' t rest hin hact hstep
  obtain ⟨u, hu, hsame⟩ := step_changes hin hact hstep
  rw [hsame.xport, hsame.rxHandle]
  obtain rfl | ⟨i, hpres, hop⟩ | ⟨c, hmicro⟩ := hu
  · exact .inl ⟨rfl, rfl⟩
  · obtain hkept | ⟨hoff, k, rfl, hwritten⟩ := hop.handle
    · exact .inl hkept
    · exact .inr ⟨hoff, k, hpres, hwritten⟩
  · exact .inl hmicro.handle

end Sys2Proof.Machine
end

section
/-! The operations on a ready port (`spec/40_ring_buffer.md` section 2): how each of them completes, and what it
leaves as it was. -/

namespace Sys2Proof.Machine

open Sys2Proof

/-! ## How an operation completes -/

/-- Between operations the lock is free already, so giving it back changes nothing (rule R47). -/
theorem lockRelease_of_inv {s : State} (hs : Inv s) : lockRelease s = s := by
  unfold lockRelease
  rw [← hs.lockFree, ← hs.lockCrossIdle]

/-- An operation under the lock completes with the result of its body (rule R47). -/
theorem withLock_completes {α : Type} {a : Agent} {s t : State} {r : α}
    {body : State → Except Fault (α × State)} {after : α → State → Host.Outcome State Fault Refusal}
    (hb : IgnoresLock body) (hs : Inv s) (ht : Inv t) (hr : body s = .ok (r, t)) :
    withLock a s body after = after r t := by
  rw [withLock_run hb hs.lockFree hr, lockRelease_of_inv ht]

/-- And so it does on a consumer port that is ready (rule R75). -/
theorem onPort_completes {α : Type} {c : Nat} {a : Agent} {s t : State} {r : α}
    {body : State → Except Fault (α × State)} {after : α → State → Host.Outcome State Fault Refusal}
    (hb : IgnoresLock body) (hs : Inv s) (hready : phaseOf s c = some .idle) (ht : Inv t)
    (hr : body s = .ok (r, t)) :
    onPort c s (fun _ => withLock a s body after) = after r t := by
  obtain ⟨w, hw⟩ := onPort_idle hready fun _ => withLock a s body after
  rw [hw, withLock_completes hb hs ht hr]

/-! ## NOP, KNOP, STATUS and CLEAR -/

/-- Settles O25: a ready port answers, and neither operation asks for the lock. -/
theorem nopAndKnopOnlyAnswer : Obligations.NopAndKnopOnlyAnswer := by
  intro s
  refine ⟨fun c hready => ?_, fun hready => onController_ready hready _⟩
  obtain ⟨w, hw⟩ := onPort_idle hready fun _ => .next (respond c .ok 0 none s)
  exact hw

/-- Settles O29: the body of STATUS reads the view and leaves the state. -/
theorem statusAnswersTheView : Obligations.StatusAnswersTheView := fun _ _ hs hready =>
  onPort_completes ignoresLock_status hs hready hs rfl

/-- Settles O28: with `tail` at `head` no position is pending. -/
theorem clearDiscardsEveryPendingFrame : Obligations.ClearDiscardsEveryPendingFrame := by
  intro s c hs hready
  have hcount : (clearRing s).count = 0 := (count_eq_zero_iff (s := clearRing s) hs.headLt).2 rfl
  have hsize := hs.ring.sizePos
  refine ⟨_, onPort_completes ignoresLock_clear hs hready (inv_clearRing hs) rfl, rfl, hcount,
    decide_eq_true rfl, decide_eq_false ?_, pendingSeq_clearRing (s := s) hs.ring⟩
  show (clearRing s).count ≠ s.params.cmdBufferSize
  omega

/-! ## PEEK -/

/-- PEEK answers what PEEK_MATCHING finds on the list, and leaves the state (rule R85). -/
theorem exec_peek_list {c : Nat} {id : U64} {s : State} {l : List Frame} (hs : Inv s)
    (hready : phaseOf s c = some .idle) (hl : pendingSeq s = .ok l) :
    exec (.peek c id) s = .next (peekAnswer c (oldestMatch id l) s) :=
  onPort_completes (ignoresLock_peekMatching _) hs hready hs (peekMatching_list hl)

/-- The oldest match is the first position with the identifier (rule R81). -/
theorem oldestMatch_eq_some {id : U64} {l : List Frame} {i : Nat}
    (hmatch : ∃ f, l[i]? = some f ∧ f.commandId = id)
    (hfirst : ∀ j f, j < i → l[j]? = some f → f.commandId ≠ id) : oldestMatch id l = some i := by
  obtain ⟨f, hf, hid⟩ := hmatch
  obtain ⟨hlt, rfl⟩ := List.getElem?_eq_some_iff.1 hf
  refine List.findIdx?_eq_some_iff_getElem.2 ⟨hlt, decide_eq_true hid, fun j hj => ?_⟩
  have hne := hfirst j _ hj (List.getElem?_eq_getElem (hj.trans hlt))
  simpa [matchesId] using hne

theorem oldestMatch_eq_none {id : U64} {l : List Frame} (h : ∀ f ∈ l, f.commandId ≠ id) :
    oldestMatch id l = none :=
  List.findIdx?_eq_none_iff.2 fun f hf => decide_eq_false (h f hf)

/-- Settles O26, by what PEEK_MATCHING finds. -/
theorem peekAnswersTheOldestMatch : Obligations.PeekAnswersTheOldestMatch := by
  intro s c id l hs hready hl hshort
  refine ⟨fun i hmatch hfirst => ?_, fun hnone => ?_⟩
  · have hlt : i < l.length := by
      obtain ⟨f, hf, -⟩ := hmatch
      exact (List.getElem?_eq_some_iff.1 hf).1
    rw [exec_peek_list hs hready hl, oldestMatch_eq_some hmatch hfirst,
      ← zextOr_of_lt 64 Config.widePosition i (hlt.trans hshort)]
    rfl
  · rw [exec_peek_list hs hready hl, oldestMatch_eq_none hnone]
    rfl

/-! ## The bytes of POP_AT -/

/-- A write to one slot leaves every byte outside it (rule R42). -/
theorem read_slotWrite_outside {s t : State} {k a : Nat} {bs : List Byte}
    (hlen : bs.length = s.params.frameBytes) (h : slotWrite s k bs = .ok t) (ha : ¬ inSlot s.params k a) :
    Memory.read t.slots a = Memory.read s.slots a := by
  obtain ⟨-, rfl⟩ := (slotWrite_ok s t k bs).1 h
  exact (Memory.read_writeBytes bs _ _ a).trans (if_neg (hlen ▸ ha))

/-- The shift of POP_AT stores only to the slots of positions `1` to `i` (rule R82). -/
theorem read_shiftOlder_outside {i a : Nat} {s t : State} (h : shiftOlder s i = .ok t)
    (ha : ∀ j, 1 ≤ j → j ≤ i → ¬ inSlot s.params (pendingSlot s j) a) :
    Memory.read t.slots a = Memory.read s.slots a := by
  induction i generalizing s with
  | zero =>
    cases h
    rfl
  | succ k ih =>
    unfold shiftOlder at h
    split at h
    · cases h
    · rename_i bs hread
      split at h
      · cases h
      · rename_i s1 hwrite
        have hfirst : Memory.read s1.slots a = Memory.read s.slots a :=
          read_slotWrite_outside (slotRead_length s _ bs hread) hwrite (ha (k + 1) (by omega) (by omega))
        obtain ⟨-, rfl⟩ := (slotWrite_ok _ _ _ _).1 hwrite
        exact (ih h fun j h1 hj => ha j h1 (by omega)).trans hfirst

/-- `dec` loses no byte, so equal pending frames stand in slots with equal bytes (rules R60, R61). -/
theorem slotRead_eq_of_pendingAt_eq {s t : State} {i j : Nat} (h : pendingAt s i = pendingAt t j) :
    slotRead s (pendingSlot s i) = slotRead t (pendingSlot t j) := by
  unfold pendingAt at h
  cases hbs : slotRead s (pendingSlot s i) with
  | error e =>
    cases hcs : slotRead t (pendingSlot t j) with
    | error e' =>
      rw [hbs, hcs] at h
      cases h
      rfl
    | ok cs =>
      rw [hbs, hcs] at h
      cases h
  | ok bs =>
    cases hcs : slotRead t (pendingSlot t j) with
    | error e =>
      rw [hbs, hcs] at h
      cases h
    | ok cs =>
      rw [hbs, hcs] at h
      have hdec : Frame.dec bs = Frame.dec cs := Except.ok.inj h
      have hb : 32 ≤ bs.length := slotRead_length s _ bs hbs ▸ le_frameBytes s.params
      have hc : 32 ≤ cs.length := slotRead_length t _ cs hcs ▸ le_frameBytes t.params
      rw [← Frame.enc_dec hb, hdec, Frame.enc_dec hc]

/-- The shift puts the bytes of each position below `i` one position higher (rule R82). -/
theorem slotRead_shiftOlder {i j : Nat} {s t : State} (htail : s.tail < s.params.ptrMod)
    (hi : i < s.params.cmdBufferSize) (h : shiftOlder s i = .ok t) (h1 : 1 ≤ j) (hj : j ≤ i) :
    slotRead t (pendingSlot s j) = slotRead s (pendingSlot s (j - 1)) := by
  have hmoved := pendingAt_shiftOlder htail hi h (j := j) (by omega)
  rw [if_pos ⟨h1, hj⟩] at hmoved
  have hslot : pendingSlot t j = pendingSlot s j := by
    rw [shiftOlder_frame i s t h]
    rfl
  rw [← hslot]
  exact slotRead_eq_of_pendingAt_eq hmoved

/-- What a POP_AT that hands over a frame has done (rule R82). -/
theorem popAtPos_some {i : Nat} {f : Frame} {s t : State} (h : popAtPos i s = .ok (some f, t)) :
    i < s.count ∧ pendingAt s i = .ok f ∧ ∃ s1, shiftOlder s i = .ok s1 ∧
      t = { s with slots := s1.slots, tail := ptrInc s.params s.tail } := by
  obtain ⟨-, hf, -⟩ | ⟨hi, g, s1, hg, hshift, hf, ht⟩ := popAtPos_ok _ _ _ _ h
  · cases hf
  · cases hf
    exact ⟨hi, hg, s1, hshift, ht⟩

/-- So POP_AT leaves every byte outside the slots of positions `1` to `i` (rule R82). -/
theorem read_popAtPos_outside {i : Nat} {f : Frame} {s t : State} (h : popAtPos i s = .ok (some f, t)) (a : Nat)
    (ha : ∀ j, 1 ≤ j → j ≤ i → ¬ inSlot s.params (pendingSlot s j) a) :
    Memory.read t.slots a = Memory.read s.slots a := by
  obtain ⟨-, -, s1, hshift, rfl⟩ := popAtPos_some h
  have hread : Memory.read s1.slots a = Memory.read s.slots a := read_shiftOlder_outside hshift ha
  exact hread

/-- Settles O24: POP_AT is the shift, then one step of `tail`. -/
theorem popAtShiftsTheOlderFrames : Obligations.PopAtShiftsTheOlderFrames := by
  intro s i hs
  refine ⟨fun hi => ?_, popAtPos_out_of_range⟩
  obtain ⟨l, hl⟩ := hs.ring.exists_pendingSeq
  obtain ⟨f, hf⟩ := getElem?_of_pendingSeq hl hi
  obtain ⟨t, hpop, -⟩ := popAtPos_list hs.ring hl hf
  obtain ⟨-, hat, s1, hshift, rfl⟩ := popAtPos_some hpop
  have hring := ringInv_popAtPos hpop hs.ring
  have hcount : State.count { s with slots := s1.slots, tail := ptrInc s.params s.tail } = s.count - 1 :=
    hs.ring.count_remove (by omega) rfl rfl rfl
  have hle := hs.countLe
  refine ⟨f, _, hpop, hat, rfl, by omega, decide_eq_false ?_, ?_, fun j h1 hj => ?_,
    read_popAtPos_outside hpop⟩
  · show State.count _ ≠ s.params.cmdBufferSize
    omega
  · refine decide_eq_true_iff.trans ((count_eq_zero_iff hring.tailLt).symm.trans ?_)
    omega
  · have hbytes := slotRead_shiftOlder hs.tailLt (by omega) hshift h1 hj
    rw [shiftOlder_frame i s s1 hshift] at hbytes
    exact hbytes

/-- POP_AT the operation answers what POP_AT the primitive gives (rule R86). -/
theorem exec_popAt {c : Nat} {a : U64} {r : Option Frame} {s t : State} (hs : Inv s)
    (hready : phaseOf s c = some .idle) (hpop : popAtPos a.toNat s = .ok (r, t)) :
    exec (.popAt c a) s = .next (popAnswer c r t) :=
  onPort_completes (ignoresLock_popAtPos _) hs hready (inv_popAtPos hpop hs) hpop

/-- Settles O27, by the primitive on the list and its bytes. -/
theorem popAtRemovesThePosition : Obligations.PopAtRemovesThePosition := by
  intro s c a l hs hready hl
  refine ⟨fun f hf => ?_, fun hout => ?_⟩
  · obtain ⟨t, hpop, hpending⟩ := popAtPos_list hs.ring hl hf
    have hbytes := read_popAtPos_outside hpop
    obtain ⟨-, -, s1, -, rfl⟩ := popAtPos_some hpop
    exact ⟨_, exec_popAt hs hready hpop, rfl, hpending, hbytes⟩
  · rw [length_of_pendingSeq hl] at hout
    exact exec_popAt hs hready (popAtPos_out_of_range hout)

/-! ## RX_FRAME -/

/-- RX_FRAME online pushes and reports (rules R121, R122). -/
theorem exec_rxFrame {f : Frame} {b : Bool} {s t : State} (hs : Inv s) (hon : s.online = true)
    (hf : f.WF s.params) (hpush : push f s = .ok (b, t)) :
    exec (.rxFrame f) s = .next (reportOverflow b t) := by
  show onProducer s _ = _
  rw [onProducer_online hon, withFrame_wf hf,
    withLock_completes (ignoresLock_push f) hs (inv_push hf hpush hs) hpush]

/-- PUSH leaves its frame's wire string in the slot of `head` and every byte outside that slot (rule R80). -/
theorem push_bytes {f : Frame} {b : Bool} {s t : State} (hf : f.WF s.params)
    (h : push f s = .ok (b, t)) :
    slotRead t (ptrSlot s.params s.head) = .ok f.enc ∧
    ∀ a, ¬ inSlot s.params (ptrSlot s.params s.head) a → Memory.read t.slots a = Memory.read s.slots a := by
  obtain ⟨-, hin, rfl⟩ := pushWire_ok _ _ _ _ h
  have hlen := enc_length_of_wf s.params f hf
  have hwrite := (slotWrite_ok s _ (ptrSlot s.params s.head) f.enc).2 ⟨hin, rfl⟩
  have houtside := fun a => read_slotWrite_outside (a := a) hlen hwrite
  exact ⟨(slotRead_slotWrite s _ _ _ f.enc hlen hwrite).trans (if_pos rfl), houtside⟩

/-- A push into a full ring leaves as many frames as before, any other one more (rule R80). -/
theorem length_keptByPush {s : State} {l : List Frame} (hs : RingInv s) (hl : pendingSeq s = .ok l)
    (f : Frame) : (keptByPush s l ++ [f]).length =
      if s.full then s.params.cmdBufferSize else s.count + 1 := by
  have hlen := length_of_pendingSeq hl
  have hsize := hs.sizePos
  unfold keptByPush
  by_cases hfull : s.full = true
  · have hcount := full_iff.1 hfull
    simp only [if_pos hfull, List.length_append, List.length_tail, List.length_singleton]
    omega
  · simp only [if_neg hfull, List.length_append, List.length_singleton]
    omega

theorem reportOverflow_eq (b : Bool) (s : State) :
    reportOverflow b s = { s with out := if b then s.out else s.out ++ [.ovf] } := by
  cases b <;> rfl

/-- Settles O42: PUSH on the list and its bytes, then the report. -/
theorem rxFramePushes : Obligations.RxFramePushes := by
  intro s f l hs hon hf hl
  obtain ⟨t, hpush, hpending⟩ := push_list hs.ring hf hl
  have hcount := (length_of_pendingSeq hpending).symm.trans (length_keptByPush hs.ring hl f)
  have hnonempty : t.empty = false := by
    have hpos : t.count ≠ 0 := by
      rw [← length_of_pendingSeq hpending, List.length_append]
      exact Nat.succ_ne_zero _
    exact decide_eq_false (mt (count_eq_zero_iff (inv_push hf hpush hs).tailLt).2 hpos)
  have hkept : keptByPush s l ++ [f] = if s.full then l.tail ++ [f] else l ++ [f] :=
    apply_ite (· ++ [f]) _ _ _
  obtain ⟨hslot, hbytes⟩ := push_bytes hf hpush
  rw [hkept] at hpending
  refine ⟨{ t with out := if s.full then s.out ++ [.ovf] else s.out }, ?exec, ?frame, hpending, hcount,
    hnonempty, hslot, hbytes⟩
  case exec =>
    have hout : t.out = s.out := by
      obtain ⟨m, k, rfl⟩ := push_frame hpush
      rfl
    rw [exec_rxFrame hs hon hf hpush, reportOverflow_eq, hout]
    cases s.full <;> rfl
  case frame =>
    obtain ⟨-, -, ht⟩ := pushWire_ok _ _ _ _ hpush
    rw [ht]

end Sys2Proof.Machine
end

section
/-! The sequence law (`spec/40_ring_buffer.md` rule R84), and what overflow keeps (rule R90): the ring as a queue
of at most `N` frames. -/

namespace Sys2Proof.Machine

open Sys2Proof

/-! ## The ring as a queue -/

/-- A ring with parameters `p` in working order, whose pending frames are `l`. -/
structure RingHolds (p : Params) (l : List Frame) (s : State) : Prop where
  ring : RingInv s
  params : s.params = p
  pending : pendingSeq s = .ok l

theorem Inv.ringHolds {s : State} {l : List Frame} (hs : Inv s) (hl : pendingSeq s = .ok l) :
    RingHolds s.params l s := ⟨hs.ring, rfl, hl⟩

section Queue

variable {p : Params} {l : List Frame} {s : State}

theorem RingHolds.full_iff (h : RingHolds p l s) : s.full = true ↔ l.length = p.cmdBufferSize := by
  rw [Machine.full_iff, length_of_pendingSeq h.pending, h.params]

theorem RingHolds.length_le (h : RingHolds p l s) : l.length ≤ p.cmdBufferSize := by
  rw [length_of_pendingSeq h.pending, ← h.params]
  exact h.ring.countLe

theorem RingHolds.push (h : RingHolds p l s) {f : Frame} (hf : f.WF p) :
    ∃ t, push f s = .ok (!s.full, t) ∧ RingHolds p (keptByPush s l ++ [f]) t := by
  have hfs : f.WF s.params := h.params ▸ hf
  obtain ⟨t, hpush, hpending⟩ := push_list h.ring hfs h.pending
  have hparams : t.params = s.params := by
    obtain ⟨m, k, rfl⟩ := push_frame hpush
    rfl
  exact ⟨t, hpush, ringInv_push hfs hpush h.ring, hparams.trans h.params, hpending⟩

/-- PUSH into a queue with room appends (rule R84). -/
theorem RingHolds.push_room (h : RingHolds p l s) {f : Frame} (hf : f.WF p)
    (hroom : l.length < p.cmdBufferSize) :
    ∃ t, Machine.push f s = .ok (true, t) ∧ RingHolds p (l ++ [f]) t := by
  have hfull : s.full = false := by
    rw [← Bool.not_eq_true, h.full_iff]
    exact Nat.ne_of_lt hroom
  have hpush := h.push hf
  unfold keptByPush at hpush
  rwa [hfull] at hpush

/-- PUSH into a full queue drops the oldest frame, then appends (rule R84). -/
theorem RingHolds.push_full (h : RingHolds p l s) {f : Frame} (hf : f.WF p)
    (hfull : l.length = p.cmdBufferSize) :
    ∃ t, Machine.push f s = .ok (false, t) ∧ RingHolds p (l.tail ++ [f]) t := by
  have hpush := h.push hf
  unfold keptByPush at hpush
  rwa [h.full_iff.2 hfull] at hpush

theorem RingHolds.popAt (h : RingHolds p l s) {i : Nat} {f : Frame} (hi : l[i]? = some f) :
    ∃ t, popAtPos i s = .ok (some f, t) ∧ RingHolds p (l.eraseIdx i) t := by
  obtain ⟨t, hpop, hpending⟩ := popAtPos_list h.ring h.pending hi
  have hparams : t.params = s.params := by
    obtain ⟨m, k, rfl⟩ := popAtPos_frame hpop
    rfl
  exact ⟨t, hpop, ringInv_popAtPos hpop h.ring, hparams.trans h.params, hpending⟩

theorem RingHolds.popAt_out_of_range (h : RingHolds p l s) {i : Nat} (hi : l.length ≤ i) :
    popAtPos i s = .ok (none, s) :=
  popAtPos_out_of_range (length_of_pendingSeq h.pending ▸ hi)

end Queue

/-! ## The sequence law -/

/-- The micro-steps other than the scan leave the frames alone (rule R84). -/
theorem microStep_quiet {c : Nat} {s s' : State} (hphase : phaseOf s c ≠ some .scan)
    (h : microStep c s = .next s') : Quiet s s' := by
  unfold microStep at h
  split at h
  · cases h
  · rename_i w hw
    split at h
    · cases h
      exact .refl _
    · rename_i hscan
      exact absurd (phaseOf_eq_some.2 ⟨w, hw, hscan⟩) hphase
    · exact wCheck_quiet h
    · cases h
      exact ⟨rfl, rfl⟩

/-- Settles O22, primitive by primitive. -/
theorem primitivesObeyTheSequenceLaw : Obligations.PrimitivesObeyTheSequenceLaw := by
  intro s l hs hl
  have hq : RingHolds s.params l s := hs.ringHolds hl
  refine ⟨fun f hf => ?push, fun P => peekMatching_list hl, fun i f hi => popAtPos_list hs.ring hl hi,
    fun i hi => hq.popAt_out_of_range hi, pendingSeq_clearRing hs.ring,
    fun i t hi hexec => (exec_quiet hi hexec).1.trans hl,
    fun c t hphase hstep => (microStep_quiet hphase hstep).1.trans hl⟩
  case push =>
    have hle := hq.length_le
    by_cases hroom : l.length < s.params.cmdBufferSize
    · obtain ⟨t, hpush, ht⟩ := hq.push_room hf hroom
      exact ⟨t, by rw [hpush, decide_eq_true hroom], by rw [if_pos hroom, ht.pending]⟩
    · obtain ⟨t, hpush, ht⟩ := hq.push_full hf (by omega)
      exact ⟨t, by rw [hpush, decide_eq_false hroom], by rw [if_neg hroom, ht.pending]⟩

/-! ## Overflow -/

theorem pushAll_cons {f : Frame} {fs : List Frame} {b : Bool} {bs : List Bool} {s t u : State}
    (hf : push f s = .ok (b, t)) (hfs : pushAll fs t = .ok (bs, u)) :
    pushAll (f :: fs) s = .ok (b :: bs, u) := by
  unfold pushAll
  rw [hf]
  simp only [hfs]

theorem pushAll_append {fs gs : List Frame} {as bs : List Bool} {s t u : State}
    (hfs : pushAll fs s = .ok (as, t)) (hgs : pushAll gs t = .ok (bs, u)) :
    pushAll (fs ++ gs) s = .ok (as ++ bs, u) := by
  induction fs generalizing s as with
  | nil =>
    cases hfs
    exact hgs
  | cons f fs ih =>
    unfold pushAll at hfs
    split at hfs
    · cases hfs
    · rename_i b s1 hf
      split at hfs
      · cases hfs
      · rename_i as' t' hrest
        cases hfs
        exact pushAll_cons hf (ih hrest)

/-- Frames pushed where all have room are appended in push order (rule R90). -/
theorem RingHolds.pushAll_room {p : Params} {l : List Frame} {s : State} (h : RingHolds p l s)
    {fs : List Frame} (hwf : ∀ f ∈ fs, f.WF p) (hroom : l.length + fs.length ≤ p.cmdBufferSize) :
    ∃ t, pushAll fs s = .ok (List.replicate fs.length true, t) ∧ RingHolds p (l ++ fs) t := by
  induction fs generalizing l s with
  | nil => exact ⟨s, rfl, by rwa [List.append_nil]⟩
  | cons f fs ih =>
    rw [List.length_cons] at hroom
    obtain ⟨hf, hfs⟩ := List.forall_mem_cons.1 hwf
    obtain ⟨t, hpush, ht⟩ := h.push_room hf (by omega)
    obtain ⟨u, hrest, hu⟩ := ih ht hfs (by rw [List.length_append, List.length_singleton]; omega)
    rw [List.append_assoc, List.singleton_append] at hu
    exact ⟨u, pushAll_cons hpush hrest, hu⟩

/-- Each frame pushed into a full queue takes the place of the oldest one there (rule R90). -/
theorem RingHolds.pushAll_full {p : Params} {l : List Frame} {s : State} (h : RingHolds p l s)
    {fs : List Frame} (hwf : ∀ f ∈ fs, f.WF p) (hfull : l.length = p.cmdBufferSize) :
    ∃ t, pushAll fs s = .ok (List.replicate fs.length false, t) ∧
      RingHolds p ((l ++ fs).drop fs.length) t := by
  induction fs generalizing l s with
  | nil => exact ⟨s, rfl, by rwa [List.append_nil]⟩
  | cons f fs ih =>
    have hsize : 1 ≤ p.cmdBufferSize := h.params ▸ h.ring.sizePos
    obtain ⟨hf, hfs⟩ := List.forall_mem_cons.1 hwf
    obtain ⟨t, hpush, ht⟩ := h.push_full hf hfull
    obtain ⟨u, hrest, hu⟩ := ih ht hfs (by
      rw [List.length_append, List.length_tail, List.length_singleton]
      omega)
    refine ⟨u, pushAll_cons hpush hrest, ?_⟩
    have hsame : (l.tail ++ [f] ++ fs).drop fs.length = (l ++ f :: fs).drop (f :: fs).length := by
      obtain ⟨x, xs, rfl⟩ := List.exists_cons_of_length_pos (show 0 < l.length by omega)
      simp
    rwa [← hsame]

/-- Draining yields every pending frame, oldest first (rule R90). -/
theorem RingHolds.drainRing {p : Params} {l : List Frame} {s : State} (h : RingHolds p l s) {n : Nat}
    (hn : l.length < n) : ∃ u, drainRing n s = .ok (l, u) ∧ RingHolds p [] u := by
  induction n generalizing l s with
  | zero => exact absurd hn (Nat.not_lt_zero _)
  | succ n ih =>
    unfold Machine.drainRing
    cases l with
    | nil =>
      rw [h.popAt_out_of_range (Nat.le_refl 0)]
      exact ⟨s, rfl, h⟩
    | cons f fs =>
      obtain ⟨t, hpop, ht⟩ := h.popAt (i := 0) rfl
      obtain ⟨u, hdrain, hu⟩ := ih ht (Nat.lt_of_succ_lt_succ hn)
      rw [hpop]
      simp only [hdrain]
      exact ⟨u, rfl, hu⟩

/-- Settles O23: the first `N` frames fill the ring, each of the others drops the oldest. -/
theorem overflowKeepsTheNewest : Obligations.OverflowKeepsTheNewest := by
  intro s fs k hs hempty hwf _ hlen
  have hfirst : (fs.take s.params.cmdBufferSize).length = s.params.cmdBufferSize := by
    rw [List.length_take]
    omega
  have hlater : (fs.drop s.params.cmdBufferSize).length = k := by
    rw [List.length_drop]
    omega
  obtain ⟨t, hfill, ht⟩ := (hs.ringHolds hempty).pushAll_room (fs := fs.take s.params.cmdBufferSize)
    (fun f hf => hwf f (List.mem_of_mem_take hf)) (by simp [hfirst])
  obtain ⟨u, hover, hu⟩ := ht.pushAll_full (fs := fs.drop s.params.cmdBufferSize)
    (fun f hf => hwf f (List.mem_of_mem_drop hf)) hfirst
  have hall := pushAll_append hfill hover
  rw [List.nil_append, List.take_append_drop, hlater] at hu
  rw [List.take_append_drop, hfirst, hlater] at hall
  have hnewest : (fs.drop k).length = s.params.cmdBufferSize := by
    rw [List.length_drop]
    omega
  obtain ⟨v, hdrain, hv⟩ := hu.drainRing (Nat.lt_succ_of_le hu.length_le)
  exact ⟨u, v, hall, (length_of_pendingSeq hu.pending).symm.trans hnewest, hu.pending, hdrain, hv.pending⟩

end Sys2Proof.Machine
end

section
/-! The response waiter, micro-step by micro-step (`spec/41_response_waiter.md` section 1): how a wait starts, and
what W_SCAN, W_CHECK and W_WAKE do to it. -/

namespace Sys2Proof.Machine

open Sys2Proof

/-! ## Waiter contexts -/

/-- A context that exists takes the value written to it. -/
theorem getElem?_set_context {ws : List Waiter} {c : Nat} {w : Waiter} (hw : ws[c]? = some w) (v : Waiter) :
    (ws.set c v)[c]? = some v :=
  List.getElem?_set_self (List.getElem?_eq_some_iff.1 hw).1

theorem getElem?_setWaiter_of_ne {c d : Nat} (hne : c ≠ d) (v : Waiter) (s : State) :
    (setWaiter c v s).waiters[d]? = s.waiters[d]? :=
  List.getElem?_set_ne hne

/-! ## Acceptance -/

/-- Settles O30: a ready port runs the body of WAIT_FOR, which asks for no lock. -/
theorem waitForStartsAWait : Obligations.WaitForStartsAWait :=
  fun s c _ _ w hw hidle => onPort_ready c s w _ hw hidle

/-! ## Which micro-step a phase enables -/

theorem microStep_idle {s : State} {c : Nat} {w : Waiter} (hw : s.waiters[c]? = some w)
    (hidle : w.phase = .idle) : microStep c s = .next s := by
  unfold microStep
  rw [hw]
  simp only [hidle]

theorem microStep_check {s : State} {c : Nat} {w : Waiter} (hw : s.waiters[c]? = some w)
    (hcheck : w.phase = .check) : microStep c s = wCheck c w s := by
  unfold microStep
  rw [hw]
  simp only [hcheck]

theorem microStep_sleep {s : State} {c : Nat} {w : Waiter} (hw : s.waiters[c]? = some w)
    (hsleep : w.phase = .sleep) : microStep c s = wWake c w s := by
  unfold microStep
  rw [hw]
  simp only [hsleep]

/-! ## W_CHECK -/

theorem microStep_check_expired {s : State} {c : Nat} {w : Waiter} (hw : s.waiters[c]? = some w)
    (hcheck : w.phase = .check) (hexp : waitExpired w s.now = true) :
    microStep c s = .next (setWaiter c { w with phase := .idle } (respond c .noMatch 0 none s)) :=
  (microStep_check hw hcheck).trans (if_pos hexp)

theorem microStep_check_goesOn {s : State} {c : Nat} {w : Waiter} (hw : s.waiters[c]? = some w)
    (hcheck : w.phase = .check) (hexp : waitExpired w s.now = false) :
    microStep c s = .next (setWaiter c { w with phase := .sleep } s) :=
  (microStep_check hw hcheck).trans (if_neg (by rw [hexp]; exact Bool.false_ne_true))

theorem waitExpired_of_inf {w : Waiter} (hinf : w.inf = true) (now : U64) : waitExpired w now = false := by
  unfold waitExpired
  rw [hinf]
  rfl

/-- For a wait that started in the past the elapsed time is an exact difference (rules R102, R115). -/
theorem waitExpired_iff {w : Waiter} {now : U64} (hstart : w.start ≤ now) :
    waitExpired w now = true ↔ w.inf = false ∧ w.timeout.toNat < now.toNat - w.start.toNat := by
  unfold waitExpired
  rw [BitVec.toNat_sub_of_le hstart, Bool.and_eq_true, Bool.not_eq_true', decide_eq_true_iff]

/-- The clock has not gone back behind the start of a wait in progress (rule R102). -/
theorem Inv.start_le {s : State} {c : Nat} {w : Waiter} (hs : Inv s) (hw : s.waiters[c]? = some w)
    (hbusy : w.phase ≠ .idle) : w.start ≤ s.now :=
  hs.startLe w (List.mem_of_getElem? hw) hbusy

/-- Settles O34, by whether the wait has expired. -/
theorem checkComparesStrictly : Obligations.CheckComparesStrictly := by
  intro s c w hs hw hcheck
  have hexp := waitExpired_iff (hs.start_le hw (by rw [hcheck]; decide))
  refine ⟨fun hover => microStep_check_expired hw hcheck (hexp.2 hover), fun hwithin => ?_⟩
  refine microStep_check_goesOn hw hcheck (Bool.eq_false_iff.2 fun hover => ?_)
  obtain ⟨hfinite, hlate⟩ := hexp.1 hover
  obtain hinf | hearly := hwithin
  · rw [hfinite] at hinf
    exact Bool.false_ne_true hinf
  · omega

/-- Settles O31: the drawn timeout is the value the statement leaves open, and a wait without a timeout does not
expire. -/
theorem waitForeverStartsAWaitWithNoTimeout : Obligations.WaitForeverStartsAWaitWithNoTimeout :=
  ⟨fun s c _ w hw hidle => ⟨Config.foreverTimeout s.draws, onPort_ready c s w _ hw hidle⟩,
    fun _ _ _ hw hcheck hinf => microStep_check_goesOn hw hcheck (waitExpired_of_inf hinf _)⟩

/-! ## W_WAKE -/

theorem sleepDraw_le (s : State) : sleepDraw s ≤ s.params.pollMaxMs :=
  Nat.le_of_lt_succ (Nat.mod_lt _ (Nat.succ_pos _))

/-- Settles O35: the length is the one drawn. -/
theorem wakeReturnsToScan : Obligations.WakeReturnsToScan :=
  fun s _ _ hw hsleep => ⟨sleepDraw s, sleepDraw_le s, microStep_sleep hw hsleep⟩

/-! ## W_SCAN -/

theorem inv_scanBody {id : U64} {s t : State} {r : Option Frame} (h : scanBody id s = .ok (r, t))
    (hs : Inv s) : Inv t := by
  cases r with
  | none =>
    obtain rfl := scanBody_none h
    exact hs
  | some f =>
    obtain ⟨i, hpop⟩ := scanBody_some h
    exact inv_popAtPos hpop hs

/-- W_SCAN finds the lock free and completes with what its body gives (rules R47, R101). -/
theorem microStep_scan_completes {s t : State} {c : Nat} {w : Waiter} {r : Option Frame} (hs : Inv s)
    (hw : s.waiters[c]? = some w) (hscan : w.phase = .scan) (hr : scanBody w.wantId s = .ok (r, t)) :
    microStep c s = .next (scanAnswer c w r t) :=
  (microStep_scan hw hscan).trans
    (withLock_completes (ignoresLock_scanBody _) hs (inv_scanBody hr hs) hr)

/-- With a match the body of W_SCAN is the POP_AT of its position (rule R101). -/
theorem scanBody_of_oldestMatch {id : U64} {s : State} {l : List Frame} {i : Nat}
    (hl : pendingSeq s = .ok l) (hi : oldestMatch id l = some i) : scanBody id s = popAtPos i s := by
  unfold scanBody
  rw [peekMatching_list hl, show l.findIdx? (matchesId id) = some i from hi]

/-- With none the wait goes to Check and nothing else changes (rule R101). -/
theorem microStep_scan_missed {s : State} {c : Nat} {w : Waiter} {l : List Frame} (hs : Inv s)
    (hw : s.waiters[c]? = some w) (hscan : w.phase = .scan) (hl : pendingSeq s = .ok l)
    (hnone : l.find? (matchesId w.wantId) = none) :
    microStep c s = .next (setWaiter c { w with phase := .check } s) := by
  obtain ⟨t, hbody, -⟩ := scanBody_list (id := w.wantId) hs.ring hl
  rw [hnone] at hbody
  obtain rfl := scanBody_none hbody
  exact microStep_scan_completes hs hw hscan hbody

/-- Settles O32: a match is removed by POP_AT, the bytes with it; without one the body changes nothing. -/
theorem scanTakesTheOldestMatch : Obligations.ScanTakesTheOldestMatch := by
  intro s c w l hs hw hscan hl
  refine ⟨fun i f hf hid hfirst => ?_, fun hnone => ?_⟩
  · obtain ⟨t, hpop, hpending⟩ := popAtPos_list hs.ring hl hf
    have hbody : scanBody w.wantId s = .ok (some f, t) :=
      (scanBody_of_oldestMatch hl (oldestMatch_eq_some ⟨f, hf, hid⟩ hfirst)).trans hpop
    have hbytes := read_popAtPos_outside hpop
    have hstep := microStep_scan_completes hs hw hscan hbody
    obtain ⟨-, -, s1, -, rfl⟩ := popAtPos_some hpop
    exact ⟨_, hstep, rfl, hpending, hbytes⟩
  · exact microStep_scan_missed hs hw hscan hl
      (List.find?_eq_none.2 fun f hf => by simpa [matchesId] using hnone f hf)

end Sys2Proof.Machine
end

section
/-! How waits end and what they do to each other (`spec/41_response_waiter.md` section 2). -/

namespace Sys2Proof.Machine

open Sys2Proof

/-! ## What leaves a waiter context alone -/

theorem SameRegisters.waiters {s t : State} (h : SameRegisters s t) : t.waiters = s.waiters := by
  obtain ⟨_, _, _, rfl, -⟩ := h
  rfl

theorem SameRegisters.inputs {s t : State} (h : SameRegisters s t) : t.inputs = s.inputs := by
  obtain ⟨_, _, _, rfl, -⟩ := h
  rfl

/-- A micro-step writes its own consumer's waiter context alone (rule R21). -/
theorem MicroChange.waiter_of_ne {s u : State} {c d : Nat} (h : MicroChange s c u) (hne : c ≠ d) :
    u.waiters[d]? = s.waiters[d]? := by
  cases h with
  | unchanged => rfl
  | nextPhase => exact getElem?_setWaiter_of_ne hne _ s
  | found _ _ hscan =>
    obtain ⟨m, k, rfl⟩ := scanBody_frame hscan
    exact getElem?_setWaiter_of_ne hne _ _

theorem microStep_waiter_of_ne {s t : State} {c d : Nat} (h : microStep c s = .next t) (hne : c ≠ d) :
    t.waiters[d]? = s.waiters[d]? := by
  obtain ⟨u, hu, hsame⟩ := microStep_changes h
  rw [hsame.waiters, hu.waiter_of_ne hne]

/-- Of the operations only the acceptance of a wait writes a waiter context, that of its consumer (rules R21,
R110, R114). -/
theorem OpChange.waiter {s u : State} {i : Instr} {c : Nat} (h : OpChange s i u)
    (hi : startsWaitOf c i = false) : u.waiters[c]? = s.waiters[c]? := by
  cases h with
  | unchanged | clear | defer | rxError => rfl
  | reconnect => rw [goOnline_eq]
  | popAt hpop =>
    obtain ⟨m, k, rfl⟩ := popAtPos_frame hpop
    rfl
  | rxFrame _ _ hpush =>
    obtain ⟨m, k, rfl⟩ := push_frame hpush
    rfl
  | @startWait _ d w v hstarts =>
    refine getElem?_setWaiter_of_ne (fun heq => ?_) v s
    rw [← heq, hstarts] at hi
    exact Bool.false_ne_true hi.symm

/-- Settles O41, by what the turn offers: another consumer's micro-step, an operation, or words that stand for
none. -/
theorem nothingElseTouchesAWait : Obligations.NothingElseTouchesAWait := by
  intro s s' t rest c hin hstep hreset hmicro hwait
  cases hact : t.act with
  | reset => exact absurd hact hreset
  | micro d =>
    rw [step_micro hin hact] at hstep
    exact microStep_waiter_of_ne (s := beginTurn t rest s) hstep fun heq => hmicro (heq ▸ hact)
  | present w =>
    rw [step_of_turn hin, hact] at hstep
    obtain ⟨i, hdec, hexec⟩ | ⟨e, -, hillegal⟩ := stepPresent_next w _ _ hstep
    · obtain ⟨u, hu, hsame⟩ := exec_changes hexec
      rw [hsame.waiters, hu.waiter (hwait i ⟨w, hact, hdec⟩)]
      rfl
    · rw [(answerIllegal_same hillegal).waiters]
      rfl

/-! ## A scan that finds its frame -/

theorem inv_microStep {s t : State} {c : Nat} (h : microStep c s = .next t) (hs : Inv s) : Inv t := by
  obtain ⟨u, hu, hsame⟩ := microStep_changes h
  exact inv_of_sameRegisters hsame (inv_microChange hu hs)

theorem microStep_inputs {s t : State} {c : Nat} (h : microStep c s = .next t) : t.inputs = s.inputs := by
  obtain ⟨u, hu, hsame⟩ := microStep_changes h
  obtain ⟨m, k, ws, rfl⟩ := hu.frame
  exact hsame.inputs

/-- A wait whose scan finds a frame is answered with it and is over (rule R101). -/
theorem microStep_scan_found {s : State} {c : Nat} {w : Waiter} {l : List Frame} {f : Frame} (hs : Inv s)
    (hw : s.waiters[c]? = some w) (hscan : w.phase = .scan) (hl : pendingSeq s = .ok l)
    (hfind : l.find? (matchesId w.wantId) = some f) :
    ∃ t, microStep c s = .next t ∧ t.waiters[c]? = some { w with phase := .idle } ∧
      t.out = s.out ++ [.done c (rspWord .ok 0) (some (frameBus f))] ∧
      pendingSeq t = .ok (l.eraseP (matchesId w.wantId)) := by
  obtain ⟨t, hbody, hpending⟩ := scanBody_list (id := w.wantId) hs.ring hl
  rw [hfind] at hbody
  have hstep := microStep_scan_completes hs hw hscan hbody
  obtain ⟨m, k, rfl⟩ := scanBody_frame hbody
  exact ⟨_, hstep, getElem?_set_context hw _, rfl, hpending⟩

/-! ## A scan that finds none -/

/-- What a scan takes is the first of the frames with its identifier (rule R50). -/
theorem find?_matchesId (id : U64) (l : List Frame) : l.find? (matchesId id) = (withId id l).head? :=
  List.head?_filter.symm

/-- Settles O38, phase by phase. -/
theorem foreverWaitWithNoMatchGoesOn : Obligations.ForeverWaitWithNoMatchGoesOn := by
  intro s c w l hs hw hbusy hinf hl hnone
  have hfind : l.find? (matchesId w.wantId) = none := by rw [find?_matchesId, hnone]; rfl
  cases hphase : w.phase with
  | idle => exact absurd hphase hbusy
  | scan =>
    exact ⟨_, _, microStep_scan_missed hs hw hphase hl hfind, getElem?_set_context hw _,
      hinf, rfl, rfl, hl, fun _ => rfl, nofun, nofun⟩
  | check =>
    exact ⟨_, _, microStep_check_goesOn hw hphase (waitExpired_of_inf hinf _), getElem?_set_context hw _,
      hinf, rfl, rfl, hl, nofun, fun _ => rfl, nofun⟩
  | sleep =>
    exact ⟨_, _, microStep_sleep hw hphase, getElem?_set_context hw _,
      hinf, rfl, rfl, hl, nofun, nofun, fun _ => rfl⟩

/-- Settles O40: the first scan takes the one matching frame, and leaves the other's context for a scan that
finds none. -/
theorem firstScanWins : Obligations.FirstScanWins := by
  intro s c d w v l f hs hne hw hv hwscan hvscan hid hl hone
  obtain ⟨t, hfirst, hwt, hout, hpending⟩ :=
    microStep_scan_found hs hw hwscan hl (by rw [find?_matchesId, hone]; rfl)
  have hvt : t.waiters[d]? = some v := (microStep_waiter_of_ne hfirst hne).trans hv
  have hnone : (l.eraseP (matchesId w.wantId)).find? (matchesId v.wantId) = none := by
    rw [find?_matchesId, ← hid, withId, filter_eraseP_same, ← withId, hone]
    rfl
  have hsecond := microStep_scan_missed (inv_microStep hfirst hs) hvt hvscan hpending hnone
  exact ⟨t, _, hfirst, hsecond, hout, rfl,
    phaseOf_eq_some.2 ⟨_, (microStep_waiter_of_ne hsecond hne.symm).trans hwt, rfl⟩,
    phaseOf_eq_some.2 ⟨_, getElem?_set_context hvt _, rfl⟩⟩

/-! ## The end of a wait by its timeout -/

theorem rspWord_noMatch_ne_ok : rspWord .noMatch 0 ≠ rspWord .ok 0 := by decide

/-- In a micro-step that begins with no event, NO_MATCH is the answer of a W_CHECK that gives up (rule R108). -/
theorem microStep_noMatch {s t : State} {c d : Nat} {w : Waiter} {x : Option Nat} (hs : Inv s)
    (hquiet : s.out = []) (hw : s.waiters[c]? = some w) (hstep : microStep c s = .next t)
    (hmem : Event.done d (rspWord .noMatch 0) x ∈ t.out) :
    d = c ∧ w.phase = .check ∧ waitExpired w s.now = true ∧ phaseOf t c = some .idle := by
  have hsilent : ∀ u : State, u.out = s.out → microStep c s ≠ .next u := fun u hu hstep' => by
    rw [hstep'] at hstep
    cases hstep
    rw [hu, hquiet] at hmem
    exact List.not_mem_nil hmem
  cases hphase : w.phase with
  | idle => exact absurd (microStep_idle hw hphase) (hsilent _ rfl)
  | sleep => exact absurd (microStep_sleep hw hphase) (hsilent _ rfl)
  | scan =>
    obtain ⟨l, hl⟩ := hs.ring.exists_pendingSeq
    cases hfind : l.find? (matchesId w.wantId) with
    | none => exact absurd (microStep_scan_missed hs hw hphase hl hfind) (hsilent _ rfl)
    | some f =>
      obtain ⟨u, hu, -, hout, -⟩ := microStep_scan_found hs hw hphase hl hfind
      rw [hu] at hstep
      cases hstep
      rw [hout, hquiet] at hmem
      obtain ⟨-, hrsp, -⟩ := Event.done.inj (List.mem_singleton.1 hmem)
      exact absurd hrsp rspWord_noMatch_ne_ok
  | check =>
    cases hexp : waitExpired w s.now with
    | false => exact absurd (microStep_check_goesOn hw hphase hexp) (hsilent _ rfl)
    | true =>
      rw [microStep_check_expired hw hphase hexp] at hstep
      cases hstep
      rw [setWaiter_out, respond_out, hquiet] at hmem
      obtain ⟨hd, -, -⟩ := Event.done.inj (List.mem_singleton.1 hmem)
      exact ⟨hd, rfl, rfl,
        phaseOf_eq_some.2 ⟨_, getElem?_set_context hw _, rfl⟩⟩

/-- Settles O36: a turn begins with no event, and the clock W_CHECK compares is the one the step reads. -/
theorem noMatchOnlyAfterTheTimeout : Obligations.NoMatchOnlyAfterTheTimeout := by
  intro s s' t rest c d w x hs hin hact hw hstep hmem
  have hs0 : Inv (beginTurn t rest s) := inv_beginTurn hs
  have hnow : s'.now = (beginTurn t rest s).now := step_now hin hstep
  rw [step_micro hin hact] at hstep
  obtain ⟨hd, hcheck, hexp, hidle⟩ := microStep_noMatch hs0 rfl hw hstep hmem
  have hstart : w.start ≤ (beginTurn t rest s).now := hs0.start_le hw (by rw [hcheck]; decide)
  obtain ⟨hfinite, hlate⟩ := (waitExpired_iff hstart).1 hexp
  exact ⟨hd, hcheck, hfinite, by rw [hnow]; exact hlate, hidle⟩

theorem le_clockRead_presented (last presented : U64) : presented ≤ clockRead last presented := by
  unfold clockRead
  split_ifs with h
  · exact BitVec.le_of_lt h
  · exact BitVec.le_refl _

/-- A wait with a timeout has expired once the clock shown has passed it (rules R102, R109). -/
theorem waitExpired_clockRead {w : Waiter} {last presented : U64} (hfinite : w.inf = false)
    (hpast : w.start.toNat + w.timeout.toNat < presented.toNat) :
    waitExpired w (clockRead last presented) = true := by
  have hread := BitVec.le_def.1 (le_clockRead_presented last presented)
  exact (waitExpired_iff (BitVec.le_def.2 (by omega))).2 ⟨hfinite, by omega⟩

/-- A W_CHECK at a clock value past the timeout ends the wait with NO_MATCH (rules R102, R109). -/
theorem step_check_past {s : State} {t : Turn} {rest : List Turn} {c : Nat} {w : Waiter}
    (hin : s.inputs = t :: rest) (hact : t.act = .micro c) (hw : s.waiters[c]? = some w)
    (hcheck : w.phase = .check) (hfinite : w.inf = false)
    (hpast : w.start.toNat + w.timeout.toNat < t.clock.toNat) :
    ∃ s', step s = .next s' ∧ phaseOf s' c = some .idle ∧
      s'.out = [.done c (rspWord .noMatch 0) none] := by
  have hexp : waitExpired w (beginTurn t rest s).now = true := waitExpired_clockRead hfinite hpast
  exact ⟨_, (step_micro hin hact).trans (microStep_check_expired hw hcheck hexp),
    phaseOf_eq_some.2 ⟨_, getElem?_set_context hw _, rfl⟩, rfl⟩

/-- Settles O37: the scan ends the wait, or leaves it for a W_CHECK at a clock value past the timeout. -/
theorem waitForEndsOnceTheClockPasses : Obligations.WaitForEndsOnceTheClockPasses := by
  intro s c w t1 t2 rest hs hin hw hscan hfinite hpast
  have hs0 : Inv (beginTurn ⟨t1, .micro c⟩ (⟨t2, .micro c⟩ :: rest) s) := inv_beginTurn hs
  obtain ⟨l, hl⟩ := hs0.ring.exists_pendingSeq
  have hstep1 := step_micro hin rfl
  cases hfind : l.find? (matchesId w.wantId) with
  | some f =>
    obtain ⟨s1, hs1, hw1, hout, -⟩ := microStep_scan_found hs0 hw hscan hl hfind
    have hstep2 := step_micro (microStep_inputs hs1) rfl
    exact ⟨s1, _, hstep1.trans hs1, hstep2.trans (microStep_idle hw1 rfl),
      phaseOf_eq_some.2 ⟨_, hw1, rfl⟩, .inl ⟨_, hout⟩⟩
  | none =>
    have hs1 := microStep_scan_missed hs0 hw hscan hl hfind
    obtain ⟨s2, hs2, hidle, hout⟩ := step_check_past (microStep_inputs hs1) rfl
      (getElem?_set_context hw { w with phase := .check }) rfl hfinite hpast
    exact ⟨_, s2, hstep1.trans hs1, hs2, hidle, .inr hout⟩

end Sys2Proof.Machine
end

section
/-! No micro-step of a waiter sees the connection (`spec/41_response_waiter.md` rule R112): each goes the same way
with any value of `online`. -/

namespace Sys2Proof.Machine

open Sys2Proof

/-- The state with another value of `online`. -/
def withOnline (b : Bool) (s : State) : State := { s with online := b }

section

variable {b : Bool} {s t : State}

theorem scanFrom_withOnline (P : Frame → Bool) (i n : Nat) :
    scanFrom (withOnline b s) P i n = scanFrom s P i n := by
  induction n generalizing i with
  | zero => rfl
  | succ n ih =>
    unfold scanFrom
    simp only [ih]
    rfl

theorem peekMatching_withOnline {P : Frame → Bool} {r : Option Nat} (h : peekMatching P s = .ok (r, t)) :
    peekMatching P (withOnline b s) = .ok (r, withOnline b t) := by
  obtain ⟨rfl, hscan⟩ := peekMatching_ok P s t r h
  have hscan' : scanFrom (withOnline b t) P 0 (withOnline b t).count = .ok r :=
    (scanFrom_withOnline P 0 _).trans hscan
  unfold peekMatching
  rw [hscan']

theorem slotWrite_withOnline {k : Nat} {bs : List Byte} (h : slotWrite s k bs = .ok t) :
    slotWrite (withOnline b s) k bs = .ok (withOnline b t) := by
  obtain ⟨hinside, rfl⟩ := (slotWrite_ok s t k bs).1 h
  exact (slotWrite_ok _ _ k bs).2 ⟨hinside, rfl⟩

theorem shiftOlder_withOnline {i : Nat} (h : shiftOlder s i = .ok t) :
    shiftOlder (withOnline b s) i = .ok (withOnline b t) := by
  induction i generalizing s with
  | zero =>
    cases h
    rfl
  | succ j ih =>
    unfold shiftOlder at h
    split at h
    · cases h
    · rename_i bs hread
      split at h
      · cases h
      · rename_i s1 hwrite
        have hread' : slotRead (withOnline b s) (pendingSlot (withOnline b s) j) = .ok bs := hread
        have hwrite' : slotWrite (withOnline b s) (pendingSlot (withOnline b s) (j + 1)) bs =
            .ok (withOnline b s1) := slotWrite_withOnline hwrite
        unfold shiftOlder
        rw [hread']
        simp only [hwrite']
        exact ih h

theorem popAtPos_withOnline {i : Nat} {r : Option Frame} (h : popAtPos i s = .ok (r, t)) :
    popAtPos i (withOnline b s) = .ok (r, withOnline b t) := by
  obtain ⟨hout, rfl, rfl⟩ | ⟨hi, f, s1, hf, hshift, rfl, rfl⟩ := popAtPos_ok i s t r h
  · exact popAtPos_out_of_range hout
  · have hdrop : dropOldest (withOnline b s1) =
        withOnline b { s with slots := s1.slots, tail := ptrInc s.params s.tail } := by
      rw [shiftOlder_frame i s s1 hshift]
      rfl
    rw [← hdrop]
    exact popAtPos_eq hi hf (shiftOlder_withOnline hshift)

theorem scanBody_withOnline {id : U64} {r : Option Frame} (h : scanBody id s = .ok (r, t)) :
    scanBody id (withOnline b s) = .ok (r, withOnline b t) := by
  unfold scanBody at h ⊢
  split at h
  · cases h
  · rename_i s1 hpeek
    cases h
    rw [peekMatching_withOnline hpeek]
  · rename_i i s1 hpeek
    rw [peekMatching_withOnline hpeek]
    exact popAtPos_withOnline h

theorem wScan_withOnline {c : Nat} {w : Waiter} (h : wScan c w s = .next t) :
    wScan c w (withOnline b s) = .next (withOnline b t) := by
  cases hlock : s.lock with
  | held a =>
    have hkept : wScan c w s = .next s := withLock_held _ a s _ _ hlock
    rw [hkept] at h
    cases h
    exact withLock_held _ a _ _ _ hlock
  | free =>
    obtain ⟨hheld, -⟩ | ⟨-, r, s1, hbody, hafter⟩ := withLock_next _ s t _ _ h
    · exact absurd hlock hheld
    have hbody' := scanBody_withOnline (b := b) hbody
    cases hafter
    refine (withLock_free (.consumer c) (withOnline b s) _ _ hlock).trans ?_
    rw [show lockGrant (.consumer c) (lockRequest (.consumer c) (withOnline b s)) =
      withOnline b (lockGrant (.consumer c) (lockRequest (.consumer c) s)) from rfl, hbody']
    cases r <;> rfl

theorem wCheck_withOnline {c : Nat} {w : Waiter} (h : wCheck c w s = .next t) :
    wCheck c w (withOnline b s) = .next (withOnline b t) := by
  unfold wCheck at h ⊢
  rw [show (withOnline b s).now = s.now from rfl]
  split_ifs at h ⊢ <;>
  · cases h
    rfl

end

/-- Settles O39, phase by phase. -/
theorem microStepsIgnoreTheConnection : Obligations.MicroStepsIgnoreTheConnection := by
  intro s t c b h
  show microStep c (withOnline b s) = .next (withOnline b t)
  cases hw : s.waiters[c]? with
  | none =>
    unfold microStep at h
    rw [hw] at h
    cases h
  | some w =>
    have hw' : (withOnline b s).waiters[c]? = some w := hw
    cases hphase : w.phase with
    | idle =>
      rw [microStep_idle hw hphase] at h
      cases h
      exact microStep_idle hw' hphase
    | scan =>
      rw [microStep_scan hw hphase] at h
      exact (microStep_scan hw' hphase).trans (wScan_withOnline h)
    | check =>
      rw [microStep_check hw hphase] at h
      exact (microStep_check hw' hphase).trans (wCheck_withOnline h)
    | sleep =>
      rw [microStep_sleep hw hphase] at h
      cases h
      exact microStep_sleep hw' hphase

end Sys2Proof.Machine
end

section
/-! The connection receiver (`spec/42_connection_receiver.md` sections 1 and 2): how SEND, RX_ERROR and RECONNECT
complete, and that of two deferred sends the later is flushed once. -/

namespace Sys2Proof.Machine

open Sys2Proof

theorem inv_exec {i : Instr} {s s' : State} (h : exec i s = .next s') (hs : Inv s) : Inv s' := by
  obtain ⟨t, hop, hsame⟩ := exec_changes h
  exact inv_of_sameRegisters hsame (inv_opChange hop hs)

/-! ## The producer port -/

theorem onProducer_offline {s : State} (h : s.online = false) (body : Host.Outcome State Fault Refusal) :
    onProducer s body = .next s := if_neg (by simp [pReady, h])

/-- Settles O43: the port is ready, and the body under the lock is the entry to the offline state. -/
theorem rxErrorGoesOffline : Obligations.RxErrorGoesOffline := fun s hs hon =>
  (onProducer_online hon _).trans
    (withLock_completes (t := goOffline s) ignoresLock_goOffline hs (inv_goOffline hs) rfl)

/-- Settles O44: both events ask the port first. -/
theorem offlineProducerConsumesNothing : Obligations.OfflineProducerConsumesNothing := fun _ =>
  ⟨rfl, fun hoff => ⟨fun _ => onProducer_offline hoff _, onProducer_offline hoff _⟩⟩

/-! ## SEND -/

/-- SEND on a ready port completes with the status of its body (rule R126). -/
theorem exec_send {c : Nat} {f : Frame} {s t : State} {st : Status} (hs : Inv s)
    (hready : phaseOf s c = some .idle) (hf : f.WF s.params) (ht : Inv t) (hbody : sendBody f s = (st, t)) :
    exec (.send c f) s = .next (respond c st 0 none t) := by
  obtain ⟨w, hw⟩ := onPort_idle hready fun _ => withFrame f s <|
    withLock (.consumer c) s (fun s => .ok (sendBody f s)) fun st s => .next (respond c st 0 none s)
  refine hw.trans ?_
  rw [withFrame_wf hf, withLock_completes (ignoresLock_send f) hs ht (congrArg Except.ok hbody)]

/-- Settles O45: the body of SEND transmits online and defers offline. -/
theorem sendTransmitsOrDefers : Obligations.SendTransmitsOrDefers := by
  intro s c f hs hready hf
  refine ⟨fun hon => ?_, fun hoff => ?_⟩
  · have hinv : Inv (emitTx f s) := inv_of_sameRegisters (.emit _ s) hs
    rw [exec_send hs hready hf hinv (sendBody_online hon)]
    simp [respond, emitTx, emit]
  · exact exec_send hs hready hf (inv_defer hf hoff hs) (sendBody_offline hoff)

/-! ## RECONNECT -/

/-- The handshake of RECONNECT ends idle, so of its phases only the answer is left (rule R132). -/
theorem kFinish_of_inv {t : State} (ht : Inv t) (k : KCross) (st : Status) :
    kFinish st (kDrop st (lockRelease { t with kCross := k })) = kRespond st t := by
  unfold kFinish kDrop lockRelease
  rw [← ht.lockFree, ← ht.lockCrossIdle, ← ht.kCrossIdle]

/-- RECONNECT with a handle that fits completes with what its body does under the handshake (rule R125). -/
theorem exec_reconnect {h : U64} {s t : State} {k : KCross} {st : Status} (hs : Inv s)
    (hfits : handleFits s.params h) (ht : Inv t)
    (hbody : kPerform (kLatch h s) = (st, { t with kCross := k })) :
    exec (.reconnect h) s = .next (kRespond st t) := by
  calc exec (.reconnect h) s
      = withLock .controller s (fun s => .ok (kPerform (kLatch h s)))
          (fun st s => .next (kFinish st (kDrop st s))) :=
        (onController_ready (kReady_of_idle s hs.kCrossIdle) _).trans (if_pos hfits)
    _ = .next (kFinish st (kDrop st (lockRelease { t with kCross := k }))) :=
        withLock_run (ignoresLock_reconnect h) hs.lockFree (congrArg Except.ok hbody)
    _ = .next (kRespond st t) := by rw [kFinish_of_inv ht]

theorem exec_reconnect_offline {h : U64} {s : State} (hs : Inv s) (hfits : handleFits s.params h)
    (hoff : s.online = false) : exec (.reconnect h) s = .next (kRespond .ok (goOnline h s)) :=
  exec_reconnect hs hfits (inv_goOnline hfits hs) (kPerform_offline hoff)

theorem exec_reconnect_online {h : U64} {s : State} (hs : Inv s) (hfits : handleFits s.params h)
    (hon : s.online = true) : exec (.reconnect h) s = .next (kRespond .refused s) :=
  exec_reconnect hs hfits hs (kPerform_online hon)

/-- The width of the handle is looked at before anything else (rules R74, R161). -/
theorem exec_reconnect_wide {h : U64} {s : State} (hs : Inv s) (hwide : ¬ handleFits s.params h) :
    exec (.reconnect h) s = .next (kRespond .illegalOp s) :=
  (onController_ready (kReady_of_idle s hs.kCrossIdle) _).trans (if_neg hwide)

/-- Settles O46: offline by what the return from the offline state writes, with and without a pending
frame. -/
theorem reconnectFlushesFirst : Obligations.ReconnectFlushesFirst := by
  intro s h hs
  refine ⟨fun hfits hoff hvalid => ?_, fun hfits hoff hnone => ?_,
    fun hfits hon => exec_reconnect_online hs hfits hon,
    fun hwide => exec_reconnect_wide hs (Nat.not_lt.2 hwide)⟩
  · rw [exec_reconnect_offline hs hfits hoff, goOnline_eq]
    simp [kRespond, emit, hvalid]
  · rw [exec_reconnect_offline hs hfits hoff, goOnline_eq]
    simp [kRespond, emit, hnone]

/-! ## Two deferred sends -/

/-- Settles O47: each operation is taken by its exact effect, from the state the one before it left. The second
SEND overwrites the first, and the flush leaves nothing for the second RECONNECT. -/
theorem latestDeferredSendIsFlushedOnce : Obligations.LatestDeferredSendIsFlushedOnce := by
  intro s c d x y h k hs hoff hc hd hx hy hh hk
  have h1 := (sendTransmitsOrDefers s c x hs hc hx).2 hoff
  have hs1 := inv_exec h1 hs
  have h2 := (sendTransmitsOrDefers _ d y hs1 hd hy).2 hoff
  have hs2 := inv_exec h2 hs1
  have h3 := (reconnectFlushesFirst _ h hs2).1 hh hoff rfl
  have hs3 := inv_exec h3 hs2
  have h4 := rxErrorGoesOffline _ hs3 rfl
  have hs4 := inv_exec h4 hs3
  have h5 := (reconnectFlushesFirst _ k hs4).2.1 hk rfl rfl
  exact ⟨_, _, _, _, _, h1, h2, h3, h4, h5, rfl, rfl, rfl, rfl, rfl, by simp [Frame.dec_enc]⟩

end Sys2Proof.Machine
end

section
/-! What the ports show of one step (`spec/30_encoding.md` rules R65 to R68): the events each operation and each
micro-step adds, and from them when TX and OVF are emitted (`spec/42_connection_receiver.md` rules R122, R134). -/

namespace Sys2Proof.Machine

open Sys2Proof

/-- `es` is what one turn from `s` to `s'` may show: nothing, one answer, a frame transmitted with the handle of
`s'` and the answer, or one overflow report. `op` is the operation presented; a micro-step, and words that stand
for no operation, have none. -/
inductive Shows (s : State) (op : Option Instr) (s' : State) : List Event → Prop
  | nothing : Shows s op s' []
  | answer (c : Nat) (rsp : BitVec 72) (d : Option Nat) : Shows s op s' [.done c rsp d]
  | kAnswer (st : BitVec 4) : Shows s op s' [.kDone st]
  /-- Rule R126, online. -/
  | sent (x c : Nat) (rsp : BitVec 72) (d : Option Nat) : s'.online = true →
      Shows s op s' [.tx x s'.xport, .done c rsp d]
  /-- Rules R124, R125. -/
  | flushed (x : Nat) (st : BitVec 4) : s'.online = true → Shows s op s' [.tx x s'.xport, .kDone st]
  /-- Rule R122. -/
  | overflow (f : Frame) : op = some (.rxFrame f) → s.online = true → s.full = true → Shows s op s' [.ovf]

namespace Shows

variable {s s' : State} {op : Option Instr} {es : List Event}

theorem tx_mem (h : Shows s op s' es) {x : Nat} {k : U64} (hmem : Event.tx x k ∈ es) :
    s'.online = true ∧ s'.xport = k := by
  cases h with
  | nothing | answer | kAnswer | overflow => simp at hmem
  | sent _ _ _ _ hon | flushed _ _ hon =>
    simp only [List.mem_cons, Event.tx.injEq, reduceCtorEq, List.not_mem_nil, or_false] at hmem
    exact ⟨hon, hmem.2.symm⟩

theorem ovf_count (h : Shows s op s' es) : es.count .ovf ≤ 1 := by
  cases h with
  | nothing | answer | kAnswer | sent | flushed => simp
  | overflow => decide

theorem ovf_mem (h : Shows s op s' es) (hmem : Event.ovf ∈ es) :
    s.online = true ∧ s.full = true ∧ ∃ f, op = some (.rxFrame f) := by
  cases h with
  | nothing | answer | kAnswer | sent | flushed => simp at hmem
  | overflow f hop hon hfull => exact ⟨hon, hfull, f, hop⟩

end Shows

/-- The turn from `s` to `s'` adds to the events of `s` what it may show. -/
def Adds (s : State) (op : Option Instr) (s' : State) : Prop :=
  ∃ es, Shows s op s' es ∧ s'.out = s.out ++ es

namespace Adds

variable {s s' : State} {op : Option Instr}

theorem nothing (h : s'.out = s.out) : Adds s op s' := ⟨[], .nothing, h.trans (List.append_nil _).symm⟩

theorem answer {c : Nat} {rsp : BitVec 72} {d : Option Nat} (h : s'.out = s.out ++ [.done c rsp d]) :
    Adds s op s' := ⟨_, .answer c rsp d, h⟩

theorem kAnswer {st : BitVec 4} (h : s'.out = s.out ++ [.kDone st]) : Adds s op s' := ⟨_, .kAnswer st, h⟩

/-- A request on a consumer port, by what its body adds on a ready one. -/
theorem onPort {c : Nat} {body : Waiter → Host.Outcome State Fault Refusal} (h : onPort c s body = .next s')
    (hbody : ∀ w, body w = .next s' → Adds s op s') : Adds s op s' := by
  obtain ⟨w, -, ⟨-, rfl⟩ | ⟨-, hb⟩⟩ := onPort_next c s s' body h
  · exact nothing rfl
  · exact hbody w hb

/-- A request on the controller port likewise. -/
theorem onController {body : Host.Outcome State Fault Refusal} (h : onController s body = .next s')
    (hbody : body = .next s' → Adds s op s') : Adds s op s' := by
  obtain ⟨-, rfl⟩ | ⟨-, hb⟩ := onController_next s s' body h
  · exact nothing rfl
  · exact hbody hb

/-- An event on the producer port likewise, which is ready only online. -/
theorem onProducer {body : Host.Outcome State Fault Refusal} (h : onProducer s body = .next s')
    (hbody : s.online = true → body = .next s' → Adds s op s') : Adds s op s' := by
  obtain ⟨-, rfl⟩ | ⟨hon, hb⟩ := onProducer_next s s' body h
  · exact nothing rfl
  · exact hbody hon hb

/-- A body under the lock, then the answer outside it. -/
theorem withLock {α : Type} {a : Agent} {body : State → Except Fault (α × State)}
    {after : α → State → Host.Outcome State Fault Refusal} (hb : IgnoresLock body)
    (h : withLock a s body after = .next s')
    (hbody : ∀ r t, body s = .ok (r, t) → after r (lockRelease t) = .next s' → Adds s op s') :
    Adds s op s' := by
  obtain rfl | ⟨r, t, hr, -, hafter⟩ := withLock_next_of_ignoresLock hb h
  · exact nothing rfl
  · exact hbody r t hr hafter

end Adds

/-! ## The operations of the connection -/

/-- SEND answers, and online transmits before it does (rule R126). -/
theorem execSend_adds {c : Nat} {f : Frame} {s s' : State} (h : execSend c f s = .next s') :
    Adds s (some (.send c f)) s' := by
  refine Adds.onPort h fun _ hb => .withLock (ignoresLock_send f) (withFrame_next _ _ _ _ hb).2
    fun st t hr hafter => ?_
  cases hafter
  cases hon : s.online with
  | true =>
    rw [sendBody_online hon] at hr
    cases hr
    exact ⟨_, .sent (frameBus f) c (rspWord .ok 0) none hon, List.append_assoc _ _ _⟩
  | false =>
    rw [sendBody_offline hon] at hr
    cases hr
    exact .answer rfl

/-- RX_FRAME reports an overflow exactly where PUSH finds the ring full (rule R122). -/
theorem execRxFrame_adds {f : Frame} {s s' : State} (h : execRxFrame f s = .next s') :
    Adds s (some (.rxFrame f)) s' := by
  refine Adds.onProducer h fun hon hb => .withLock (ignoresLock_push f) (withFrame_next _ _ _ _ hb).2
    fun b t hpush hafter => ?_
  cases hafter
  obtain ⟨rfl, -, rfl⟩ := pushWire_ok _ _ _ _ hpush
  cases hfull : s.full with
  | true => exact ⟨_, .overflow f rfl hon hfull, rfl⟩
  | false => exact .nothing rfl

/-- RECONNECT answers, and where it flushes transmits before it does (rules R124, R125). -/
theorem execReconnect_adds {h : U64} {s s' : State} (hx : execReconnect h s = .next s') :
    Adds s (some (.reconnect h)) s' := by
  refine Adds.onController hx fun hb => ?_
  split_ifs at hb
  · refine Adds.withLock (ignoresLock_reconnect h) hb fun st t hr hafter => ?_
    cases hafter
    cases hon : s.online with
    | true =>
      rw [kPerform_online hon] at hr
      cases hr
      exact .kAnswer rfl
    | false =>
      rw [kPerform_offline hon, goOnline_eq] at hr
      cases hr
      cases hvalid : s.pendingValid with
      | true =>
        exact ⟨_, .flushed (frameBus (Frame.dec s.pendingFrame)) Status.ok.code rfl,
          List.append_assoc _ _ _⟩
      | false => exact .kAnswer rfl
  · cases hb
    exact .kAnswer rfl

/-! ## One step -/

/-- Every operation adds what it may show. -/
theorem exec_adds {i : Instr} {s s' : State} (h : exec i s = .next s') : Adds s (some i) s' := by
  cases i with
  | send c f => exact execSend_adds h
  | rxFrame f => exact execRxFrame_adds h
  | reconnect k => exact execReconnect_adds h
  | nop c =>
    refine Adds.onPort h fun _ hb => ?_
    cases hb
    exact .answer rfl
  | peek c id =>
    refine Adds.onPort h fun _ hb => .withLock (ignoresLock_peekMatching _) hb fun r t hr hafter => ?_
    obtain ⟨rfl, -⟩ := peekMatching_ok _ _ _ _ hr
    cases hafter
    cases r <;> exact .answer rfl
  | popAt c a =>
    refine Adds.onPort h fun _ hb => .withLock (ignoresLock_popAtPos _) hb fun r t hr hafter => ?_
    obtain ⟨m, k, rfl⟩ := popAtPos_frame hr
    cases hafter
    cases r <;> exact .answer rfl
  | clear c =>
    refine Adds.onPort h fun _ hb => .withLock ignoresLock_clear hb fun r t hr hafter => ?_
    cases hr
    cases hafter
    exact .answer rfl
  | status c =>
    refine Adds.onPort h fun _ hb => .withLock ignoresLock_status hb fun r t hr hafter => ?_
    cases hr
    cases hafter
    exact .answer rfl
  | waitFor c id tm | waitForever c id =>
    refine Adds.onPort h fun _ hb => ?_
    cases hb
    exact .nothing rfl
  | rxError =>
    refine Adds.onProducer h fun _ hb => .withLock ignoresLock_goOffline hb fun r t hr hafter => ?_
    cases hr
    cases hafter
    exact .nothing rfl
  | knop =>
    refine Adds.onController h fun hb => ?_
    cases hb
    exact .kAnswer rfl

/-- A micro-step answers or shows nothing (rules R101 to R103). -/
theorem microStep_adds {c : Nat} {s s' : State} (h : microStep c s = .next s') : Adds s none s' := by
  cases hw : s.waiters[c]? with
  | none =>
    rw [microStep_absent hw] at h
    cases h
  | some w =>
    cases hphase : w.phase with
    | idle =>
      rw [microStep_idle hw hphase] at h
      cases h
      exact .nothing rfl
    | scan =>
      rw [microStep_scan hw hphase] at h
      refine Adds.withLock (ignoresLock_scanBody _) h fun r t hr hafter => ?_
      obtain ⟨m, k, rfl⟩ := scanBody_frame hr
      cases hafter
      cases r with
      | some f => exact .answer rfl
      | none => exact .nothing rfl
    | check =>
      cases hexp : waitExpired w s.now with
      | true =>
        rw [microStep_check_expired hw hphase hexp] at h
        cases h
        exact .answer rfl
      | false =>
        rw [microStep_check_goesOn hw hphase hexp] at h
        cases h
        exact .nothing rfl
    | sleep =>
      rw [microStep_sleep hw hphase] at h
      cases h
      exact .nothing rfl

/-- Words that stand for no operation are answered ILLEGAL_OP or not at all (rule R74). -/
theorem answerIllegal_adds {w : PortWords} {e : DecodeError} {s s' : State}
    (h : answerIllegal w e s = .next s') : Adds s none s' := by
  unfold answerIllegal at h
  split at h
  · cases h
  · refine Adds.onPort h fun _ hb => ?_
    cases hb
    exact .answer rfl
  · refine Adds.onController h fun hb => ?_
    cases hb
    exact .kAnswer rfl
  · cases h
    exact .nothing rfl

/-- A turn begins with no event, so after it the ports show what its agent added; a reset shows nothing
(rule R181). -/
theorem step_shows {s s' : State} {t : Turn} {rest : List Turn} (hin : s.inputs = t :: rest)
    (h : step s = .next s') :
    ∃ op, Shows (beginTurn t rest s) op s' s'.out ∧ ∀ i, op = some i → presents s t i := by
  have of_adds : ∀ {op}, Adds (beginTurn t rest s) op s' → Shows (beginTurn t rest s) op s' s'.out := by
    rintro op ⟨es, hes, hout⟩
    rwa [hout]
  rw [step_of_turn hin] at h
  cases ht : t.act with
  | reset =>
    rw [ht] at h
    cases h
    exact ⟨none, .nothing, fun _ hi => by cases hi⟩
  | micro c =>
    rw [ht] at h
    exact ⟨none, of_adds (microStep_adds h), fun _ hi => by cases hi⟩
  | present w =>
    rw [ht] at h
    obtain ⟨i, hdec, hexec⟩ | ⟨e, -, hillegal⟩ := stepPresent_next w _ _ h
    · refine ⟨some i, of_adds (exec_adds hexec), fun j hj => ?_⟩
      cases hj
      exact ⟨w, ht, hdec⟩
    · exact ⟨none, of_adds (answerIllegal_adds hillegal), fun _ hi => by cases hi⟩

/-- Settles O52: TX is shown only by a SEND or a flush, both with the handle and online of the state they
leave. -/
theorem transmittedFramesCarryTheCurrentHandle : Obligations.TransmittedFramesCarryTheCurrentHandle := by
  intro s s' x h hstep hmem
  obtain ⟨-, rfl⟩ | ⟨t, rest, hin, -⟩ := step_next s s' hstep
  · exact absurd hmem List.not_mem_nil
  · obtain ⟨op, hshows, -⟩ := step_shows hin hstep
    exact hshows.tx_mem hmem

/-- Settles O53: OVF is shown only as the one report of an RX_FRAME. -/
theorem overflowIsReportedOnceAndOnlyThen : Obligations.OverflowIsReportedOnceAndOnlyThen := by
  intro s s' t rest hin hstep
  obtain ⟨op, hshows, hop⟩ := step_shows hin hstep
  refine ⟨hshows.ovf_count, fun hmem => ?_⟩
  obtain ⟨hon, hfull, f, hrx⟩ := hshows.ovf_mem hmem
  exact ⟨hon, hfull, f, hop _ hrx⟩

end Sys2Proof.Machine
end

section
/-! Conditions and answers (`spec/60_exceptions.md` section 1): no condition stops the block (rule R156), and a
response goes to the port that made the request (rule R155). -/

namespace Sys2Proof

/-! ## Words on a port that exists, and on one that does not -/

theorem decode_consumer_absent {p : Params} {c : Nat} (hc : p.numConsumers ≤ c) (req : BitVec 104) (d : Nat) :
    decode p (.consumer c req d) = .error .noSuchPort := if_neg (Nat.not_lt.2 hc)

theorem decodeOp_error {p : Params} {c : Nat} {req : BitVec 104} {d : Nat} {e : DecodeError}
    (h : decodeOp p c req d = .error e) : e = .reservedOpcode := by
  unfold decodeOp at h
  split at h
  case h_9 =>
    cases h
    rfl
  all_goals cases h

/-- The decoder names an absent port only where the port is absent (rule R3). -/
theorem decode_consumer_error_ne {p : Params} {c : Nat} {req : BitVec 104} {d : Nat} {e : DecodeError}
    (hc : c < p.numConsumers) (h : decode p (.consumer c req d) = .error e) : e ≠ .noSuchPort := by
  replace h : decodeConsumer p c req d = .error e := h
  by_cases hrsv : reqRsv req = 0
  · rw [decodeConsumer_present hc hrsv] at h
    rw [decodeOp_error h]
    decide
  · rw [decodeConsumer, if_pos hc, if_neg hrsv] at h
    cases h
    decide

end Sys2Proof

namespace Sys2Proof.Machine

open Sys2Proof

/-- The agent `g` acts in a turn with action `a`: it takes its micro-step, or its port presents words
(rule R3). -/
def ActsIn (a : Action) : Agent → Prop
  | .consumer c => a = .micro c ∨ ∃ req d, a = .present (.consumer c req d)
  | .controller => ∃ req, a = .present (.controller req)
  | .producer => ∃ ev d, a = .present (.producer ev d)

/-! ## The primitives succeed on a ring that is in order -/

theorem peekMatching_succeeds {s : State} (hs : RingInv s) (P : Frame → Bool) :
    ∃ r, peekMatching P s = .ok r := by
  obtain ⟨l, hl⟩ := hs.exists_pendingSeq
  exact ⟨_, peekMatching_list hl⟩

theorem popAtPos_succeeds {s : State} (hs : RingInv s) (i : Nat) : ∃ r, popAtPos i s = .ok r := by
  obtain ⟨l, hl⟩ := hs.exists_pendingSeq
  cases hi : l[i]? with
  | none => exact ⟨_, popAtPos_out_of_range (length_of_pendingSeq hl ▸ List.getElem?_eq_none_iff.1 hi)⟩
  | some f =>
    obtain ⟨t, hpop, -⟩ := popAtPos_list hs hl hi
    exact ⟨_, hpop⟩

theorem scanBody_succeeds {s : State} (hs : RingInv s) (id : U64) : ∃ r, scanBody id s = .ok r := by
  obtain ⟨l, hl⟩ := hs.exists_pendingSeq
  obtain ⟨t, hscan, -⟩ := scanBody_list (id := id) hs hl
  exact ⟨_, hscan⟩

/-! ## Progress -/

/-- The outcome is a next state: neither a fault nor a refusal. -/
def Proceeds (o : Host.Outcome State Fault Refusal) : Prop := ∃ s', o = .next s'

theorem Proceeds.next (s : State) : Proceeds (.next s) := ⟨s, rfl⟩

/-- There is a waiter context for every consumer port (rule R21). -/
theorem Inv.exists_waiter {s : State} {c : Nat} (hs : Inv s) (hc : c < s.params.numConsumers) :
    ∃ w, s.waiters[c]? = some w :=
  ⟨_, List.getElem?_eq_getElem (hs.waitersLen.symm ▸ hc)⟩

theorem Inv.no_waiter {s : State} {c : Nat} (hs : Inv s) (hc : s.params.numConsumers ≤ c) :
    s.waiters[c]? = none :=
  List.getElem?_eq_none_iff.2 (hs.waitersLen.symm ▸ hc)

section Ports

variable {s : State}

theorem onPort_proceeds (hs : Inv s) {c : Nat} (hc : c < s.params.numConsumers)
    {body : Waiter → Host.Outcome State Fault Refusal} (hbody : ∀ w, Proceeds (body w)) :
    Proceeds (onPort c s body) := by
  obtain ⟨w, hw⟩ := hs.exists_waiter hc
  by_cases hidle : w.phase = .idle
  · rw [onPort_ready c s w body hw hidle]
    exact hbody w
  · rw [onPort_busy c s w body hw hidle]
    exact .next s

theorem onProducer_proceeds {body : Host.Outcome State Fault Refusal} (hbody : Proceeds body) :
    Proceeds (onProducer s body) := by
  unfold onProducer
  split_ifs
  · exact hbody
  · exact .next s

theorem onController_proceeds {body : Host.Outcome State Fault Refusal} (hbody : Proceeds body) :
    Proceeds (onController s body) := by
  unfold onController
  split_ifs
  · exact hbody
  · exact .next s

theorem withFrame_proceeds {f : Frame} (hf : f.WF s.params) {body : Host.Outcome State Fault Refusal}
    (hbody : Proceeds body) : Proceeds (withFrame f s body) := by
  rwa [withFrame_wf hf]

/-- An agent that finds the lock free, as it is between operations, proceeds where its body succeeds
(rule R47). -/
theorem withLock_proceeds (hs : Inv s) {α : Type} {a : Agent} {body : State → Except Fault (α × State)}
    {after : α → State → Host.Outcome State Fault Refusal} (hign : IgnoresLock body)
    (hbody : ∃ r, body s = .ok r) (hafter : ∀ r t, Proceeds (after r t)) :
    Proceeds (withLock a s body after) := by
  obtain ⟨⟨r, t⟩, hr⟩ := hbody
  rw [withLock_run hign hs.lockFree hr]
  exact hafter r _

end Ports

/-- A well-formed operation proceeds: its port exists, its frame has the fixed size, and the slots that it reads
are pending ones. -/
theorem exec_proceeds {s : State} (hs : Inv s) {i : Instr} (hwf : i.wf s.params = true) :
    Proceeds (exec i s) := by
  cases i with
  | nop c => exact onPort_proceeds hs (of_decide_eq_true hwf) fun _ => .next _
  | peek c id =>
    exact onPort_proceeds hs (of_decide_eq_true hwf) fun _ => withLock_proceeds hs
      (ignoresLock_peekMatching _) (peekMatching_succeeds hs.ring _) fun _ _ => .next _
  | popAt c a =>
    exact onPort_proceeds hs (of_decide_eq_true hwf) fun _ => withLock_proceeds hs
      (ignoresLock_popAtPos _) (popAtPos_succeeds hs.ring _) fun _ _ => .next _
  | clear c =>
    exact onPort_proceeds hs (of_decide_eq_true hwf) fun _ => withLock_proceeds hs
      ignoresLock_clear ⟨_, rfl⟩ fun _ _ => .next _
  | waitFor c id tm => exact onPort_proceeds hs (of_decide_eq_true hwf) fun _ => .next _
  | waitForever c id => exact onPort_proceeds hs (of_decide_eq_true hwf) fun _ => .next _
  | send c f =>
    obtain ⟨hc, hf⟩ := Bool.and_eq_true_iff.1 hwf
    exact onPort_proceeds hs (of_decide_eq_true hc) fun _ => withFrame_proceeds (of_decide_eq_true hf)
      (withLock_proceeds hs (ignoresLock_send f) ⟨_, rfl⟩ fun _ _ => .next _)
  | status c =>
    exact onPort_proceeds hs (of_decide_eq_true hwf) fun _ => withLock_proceeds hs
      ignoresLock_status ⟨_, rfl⟩ fun _ _ => .next _
  | rxFrame f =>
    have hf := of_decide_eq_true hwf
    exact onProducer_proceeds (withFrame_proceeds hf (withLock_proceeds hs (ignoresLock_push f)
      ⟨_, push_eq hs.ring hf⟩ fun _ _ => .next _))
  | rxError =>
    exact onProducer_proceeds (withLock_proceeds hs ignoresLock_goOffline ⟨_, rfl⟩ fun _ _ => .next _)
  | knop => exact onController_proceeds (.next _)
  | reconnect h =>
    refine onController_proceeds ?_
    rw [if_pos (of_decide_eq_true hwf)]
    exact withLock_proceeds hs (ignoresLock_reconnect h) ⟨_, rfl⟩ fun _ _ => .next _

/-- A micro-step of a consumer that exists proceeds; of the three only W_SCAN reads slots (rules R101 to
R103). -/
theorem microStep_proceeds {s : State} (hs : Inv s) {c : Nat} (hc : c < s.params.numConsumers) :
    Proceeds (microStep c s) := by
  obtain ⟨w, hw⟩ := hs.exists_waiter hc
  cases hphase : w.phase with
  | idle =>
    rw [microStep_idle hw hphase]
    exact .next s
  | scan =>
    rw [microStep_scan hw hphase]
    exact withLock_proceeds hs (ignoresLock_scanBody _) (scanBody_succeeds hs.ring _) fun _ _ => .next _
  | check =>
    cases hexp : waitExpired w s.now with
    | true => exact ⟨_, microStep_check_expired hw hphase hexp⟩
    | false => exact ⟨_, microStep_check_goesOn hw hphase hexp⟩
  | sleep =>
    rw [microStep_sleep hw hphase]
    exact .next _

/-- Words that stand for no operation are a condition, not a stop, on a port that exists (rules R155, R156). -/
theorem answerIllegal_proceeds {s : State} (hs : Inv s) {w : PortWords} {e : DecodeError}
    (hdec : decode s.params w = .error e)
    (hport : ∀ c, ActsIn (.present w) (.consumer c) → c < s.params.numConsumers) :
    Proceeds (answerIllegal w e s) := by
  cases w with
  | consumer c req d =>
    have hc := hport c (.inr ⟨req, d, rfl⟩)
    rw [answerIllegal_consumer (decode_consumer_error_ne hc hdec)]
    exact onPort_proceeds hs hc fun _ => .next _
  | producer ev d => exact .next s
  | controller req => exact onController_proceeds (.next _)

theorem stepAction_proceeds {s : State} (hs : Inv s) {a : Action}
    (hport : ∀ c, ActsIn a (.consumer c) → c < s.params.numConsumers) : Proceeds (stepAction a s) := by
  cases a with
  | reset => exact .next _
  | micro c => exact microStep_proceeds hs (hport c (.inl rfl))
  | present w =>
    show Proceeds (stepPresent w s)
    unfold stepPresent
    cases hdec : decode s.params w with
    | ok i => exact exec_proceeds hs (decodedOperationsAreWellFormed s.params w i hdec)
    | error e => exact answerIllegal_proceeds hs hdec hport

/-- What names a consumer that the block does not have is refused (log 15). -/
theorem stepAction_absent {s : State} (hs : Inv s) {a : Action} {c : Nat} (hc : s.params.numConsumers ≤ c)
    (ha : ActsIn a (.consumer c)) : stepAction a s = .refused .noSuchPort := by
  obtain rfl | ⟨req, d, rfl⟩ := ha
  · exact microStep_absent (hs.no_waiter hc)
  · show stepPresent _ s = _
    unfold stepPresent
    rw [decode_consumer_absent hc]
    rfl

/-- Settles O15: the turn begins in an invariant state, and then only the consumer it names decides. -/
theorem invariantStatesAlwaysStep : Obligations.InvariantStatesAlwaysStep := by
  intro s hs
  cases hin : s.inputs with
  | nil => exact .inl ⟨_, step_of_no_turn hin⟩
  | cons t rest =>
    have hbegin : Inv (beginTurn t rest s) := inv_beginTurn hs
    rw [step_of_turn hin]
    by_cases habsent : ∃ c, ActsIn t.act (.consumer c) ∧ s.params.numConsumers ≤ c
    · obtain ⟨c, hact, hc⟩ := habsent
      exact .inr ⟨stepAction_absent hbegin hc hact, t, rest, c, rfl, hc, hact⟩
    · refine .inl (stepAction_proceeds hbegin fun c hact => ?_)
      exact Nat.lt_of_not_le fun hc => habsent ⟨c, hact, hc⟩

/-! ## Who is answered -/

/-- The agent whose port carries the words. -/
def portOf : PortWords → Agent
  | .consumer c _ _ => .consumer c
  | .producer _ _ => .producer
  | .controller _ => .controller

theorem actsIn_present (w : PortWords) : ActsIn (.present w) (portOf w) := by
  cases w with
  | consumer c req d => exact .inr ⟨req, d, rfl⟩
  | producer ev d => exact ⟨ev, d, rfl⟩
  | controller req => exact ⟨req, rfl⟩

/-- An operation is decoded from words on its own port alone (rule R167). -/
theorem portOf_encode_of_decode {p : Params} {w : PortWords} {i : Instr} (h : decode p w = .ok i) :
    portOf (encode i) = portOf w := by
  cases w with
  | consumer c req d =>
    replace h : decodeConsumer p c req d = .ok i := h
    unfold decodeConsumer decodeOp at h
    split_ifs at h
    split at h <;> cases h <;> rfl
  | producer ev d =>
    replace h : decodeProducer p ev d = .ok i := h
    unfold decodeProducer at h
    split at h <;> cases h <;> rfl
  | controller req =>
    replace h : decodeController p req = .ok i := h
    unfold decodeController at h
    split at h
    · cases h
      rfl
    · split_ifs at h
      cases h
      rfl
    · cases h

/-- The agent that an event answers; TX and OVF answer none (rules R65 to R68). -/
def answered : Event → Option Agent
  | .done c _ _ => some (.consumer c)
  | .kDone _ => some .controller
  | .tx _ _ => none
  | .ovf => none

/-- The events that `s'` shows and `s` does not answer no agent but `g`. -/
def AnswersOnly (g : Agent) (s s' : State) : Prop :=
  ∀ e ∈ s'.out, e ∈ s.out ∨ ∀ b, answered e = some b → b = g

namespace AnswersOnly

variable {g : Agent} {s t u : State}

theorem of_out_eq (h : t.out = s.out) : AnswersOnly g s t := fun _ he => .inl (h ▸ he)

theorem trans (hst : AnswersOnly g s t) (htu : AnswersOnly g t u) : AnswersOnly g s u := fun e he =>
  (htu e he).elim (hst e) .inr

theorem of_append {e : Event} (hout : t.out = s.out ++ [e]) (he : ∀ b, answered e = some b → b = g) :
    AnswersOnly g s t := by
  intro e' hmem
  rw [hout, List.mem_append, List.mem_singleton] at hmem
  obtain hold | rfl := hmem
  · exact .inl hold
  · exact .inr he

theorem respond (c : Nat) (st : Status) (v : U64) (d : Option Nat) (s : State) :
    AnswersOnly (.consumer c) s (respond c st v d s) :=
  of_append rfl fun _ hb => (Option.some.inj hb).symm

theorem kFinish (st : Status) (s : State) : AnswersOnly .controller s (kFinish st s) :=
  of_append rfl fun _ hb => (Option.some.inj hb).symm

theorem kRespond (st : Status) (s : State) : AnswersOnly .controller s (kRespond st s) :=
  of_append rfl fun _ hb => (Option.some.inj hb).symm

theorem reportOverflow (b : Bool) (s : State) : AnswersOnly g s (reportOverflow b s) := by
  cases b with
  | true => exact of_out_eq rfl
  | false => exact of_append rfl fun _ hb => nomatch hb

theorem sendBody (f : Frame) (s : State) : AnswersOnly g s (sendBody f s).2 := by
  cases hon : s.online with
  | true =>
    rw [sendBody_online hon]
    exact of_append rfl fun _ hb => nomatch hb
  | false =>
    rw [sendBody_offline hon]
    exact of_out_eq rfl

theorem goOnline (h : U64) (s : State) : AnswersOnly g s (goOnline h s) := by
  rw [goOnline_eq]
  cases s.pendingValid with
  | true => exact of_append rfl fun _ hb => nomatch hb
  | false => exact of_out_eq rfl

theorem kPerform (h : U64) (s : State) : AnswersOnly g s (kPerform (kLatch h s)).2 := by
  cases hon : s.online with
  | true =>
    rw [kPerform_online hon]
    exact of_out_eq rfl
  | false =>
    rw [kPerform_offline hon]
    exact (goOnline h s).trans (of_out_eq rfl)

theorem scanAnswer (c : Nat) (w : Waiter) (r : Option Frame) (s : State) :
    AnswersOnly (.consumer c) s (scanAnswer c w r s) := by
  cases r with
  | none => exact of_out_eq rfl
  | some f => exact (respond c .ok 0 (some (frameBus f)) s).trans (of_out_eq rfl)

end AnswersOnly

/-- A next state that the outcome gives answers, beyond what `s` shows, no agent but `g`. -/
def RepliesTo (g : Agent) (s : State) (o : Host.Outcome State Fault Refusal) : Prop :=
  ∀ s', o = .next s' → AnswersOnly g s s'

namespace RepliesTo

variable {g : Agent} {s : State}

theorem next {t : State} (h : AnswersOnly g s t) : RepliesTo g s (.next t) := by
  intro s' hs'
  cases hs'
  exact h

theorem onPort {c : Nat} {body : Waiter → Host.Outcome State Fault Refusal}
    (hbody : ∀ w, RepliesTo g s (body w)) : RepliesTo g s (onPort c s body) := by
  intro s' h
  obtain ⟨w, -, ⟨-, rfl⟩ | ⟨-, hb⟩⟩ := onPort_next c s s' body h
  · exact .of_out_eq rfl
  · exact hbody w s' hb

theorem onProducer {body : Host.Outcome State Fault Refusal} (hbody : RepliesTo g s body) :
    RepliesTo g s (onProducer s body) := by
  intro s' h
  obtain ⟨-, rfl⟩ | ⟨-, hb⟩ := onProducer_next s s' body h
  · exact .of_out_eq rfl
  · exact hbody s' hb

theorem onController {body : Host.Outcome State Fault Refusal} (hbody : RepliesTo g s body) :
    RepliesTo g s (onController s body) := by
  intro s' h
  obtain ⟨-, rfl⟩ | ⟨-, hb⟩ := onController_next s s' body h
  · exact .of_out_eq rfl
  · exact hbody s' hb

theorem withFrame {f : Frame} {body : Host.Outcome State Fault Refusal} (hbody : RepliesTo g s body) :
    RepliesTo g s (withFrame f s body) := fun s' h => hbody s' (withFrame_next f s s' body h).2

/-- Neither the lock handshake nor giving the lock back shows an event (rule R133). -/
theorem withLock {α : Type} {a : Agent} {body : State → Except Fault (α × State)}
    {after : α → State → Host.Outcome State Fault Refusal}
    (hbody : ∀ u r t, body u = .ok (r, t) → AnswersOnly g u t)
    (hafter : ∀ r t, RepliesTo g t (after r t)) : RepliesTo g s (withLock a s body after) := by
  intro s' h
  obtain ⟨-, rfl⟩ | ⟨-, r, t, hr, ha⟩ := withLock_next a s s' body after h
  · exact .of_out_eq rfl
  · have hgrant : AnswersOnly g s (lockGrant a (lockRequest a s)) := .of_out_eq (by simp)
    have hrelease : AnswersOnly g t (lockRelease t) := .of_out_eq rfl
    exact hgrant.trans ((hbody _ r t hr).trans (hrelease.trans (hafter r _ s' ha)))

/-- A body that always succeeds, likewise. -/
theorem withLock_ok {α : Type} {a : Agent} {body : State → α × State}
    {after : α → State → Host.Outcome State Fault Refusal} (hbody : ∀ u, AnswersOnly g u (body u).2)
    (hafter : ∀ r t, RepliesTo g t (after r t)) :
    RepliesTo g s (Machine.withLock a s (fun u => .ok (body u)) after) := by
  refine withLock (fun u r t hr => ?_) hafter
  have hu := hbody u
  rwa [Except.ok.inj hr] at hu

end RepliesTo

/-- Every operation replies to the agent of its port (rule R155). -/
theorem exec_repliesTo (i : Instr) (s : State) : RepliesTo (portOf (encode i)) s (exec i s) := by
  cases i with
  | nop c => exact .onPort fun _ => .next (.respond c _ _ _ s)
  | peek c id =>
    refine .onPort fun _ => .withLock (fun u r t hr => ?_) fun r t => .next ?_
    · obtain ⟨rfl, -⟩ := peekMatching_ok _ _ _ _ hr
      exact .of_out_eq rfl
    · cases r <;> exact .respond c _ _ _ t
  | popAt c a =>
    refine .onPort fun _ => .withLock (fun u r t hr => ?_) fun r t => .next ?_
    · obtain ⟨m, k, rfl⟩ := popAtPos_frame hr
      exact .of_out_eq rfl
    · cases r <;> exact .respond c _ _ _ t
  | clear c =>
    exact .onPort fun _ => .withLock_ok (fun _ => .of_out_eq rfl) fun _ t => .next (.respond c _ _ _ t)
  | waitFor c id tm => exact .onPort fun _ => .next (.of_out_eq rfl)
  | waitForever c id => exact .onPort fun _ => .next (.of_out_eq rfl)
  | send c f =>
    exact .onPort fun _ => .withFrame (.withLock_ok (.sendBody f) fun _ t => .next (.respond c _ _ _ t))
  | status c =>
    exact .onPort fun _ => .withLock_ok (fun _ => .of_out_eq rfl) fun _ t => .next (.respond c _ _ _ t)
  | rxFrame f =>
    refine .onProducer (.withFrame (.withLock (fun u r t hr => ?_) fun b t => .next (.reportOverflow b t)))
    obtain ⟨m, k, rfl⟩ := push_frame hr
    exact .of_out_eq rfl
  | rxError => exact .onProducer (.withLock_ok (fun _ => .of_out_eq rfl) fun _ _ => .next (.of_out_eq rfl))
  | knop => exact .onController (.next (.kRespond _ s))
  | reconnect h =>
    refine .onController ?_
    split_ifs
    · exact .withLock_ok (.kPerform h) fun st t => .next (.kFinish st (kDrop st t))
    · exact .next (.kRespond _ s)

/-- A micro-step of consumer `c` replies to `c` (rules R101 to R103). -/
theorem microStep_repliesTo (c : Nat) (s : State) : RepliesTo (.consumer c) s (microStep c s) := by
  cases hw : s.waiters[c]? with
  | none =>
    rw [microStep_absent hw]
    exact fun _ h => nomatch h
  | some w =>
    cases hphase : w.phase with
    | idle =>
      rw [microStep_idle hw hphase]
      exact .next (.of_out_eq rfl)
    | scan =>
      rw [microStep_scan hw hphase]
      refine .withLock (fun u r t hr => ?_) fun r t => .next (.scanAnswer c w r t)
      obtain ⟨m, k, rfl⟩ := scanBody_frame hr
      exact .of_out_eq rfl
    | check =>
      cases hexp : waitExpired w s.now with
      | true =>
        rw [microStep_check_expired hw hphase hexp]
        exact .next ((AnswersOnly.respond c .noMatch 0 none s).trans (.of_out_eq rfl))
      | false =>
        rw [microStep_check_goesOn hw hphase hexp]
        exact .next (.of_out_eq rfl)
    | sleep =>
      rw [microStep_sleep hw hphase]
      exact .next (.of_out_eq rfl)

/-- ILLEGAL_OP is answered on the port of the words (rule R155). -/
theorem answerIllegal_repliesTo (w : PortWords) (e : DecodeError) (s : State) :
    RepliesTo (portOf w) s (answerIllegal w e s) := by
  cases w with
  | consumer c req d =>
    by_cases he : e = .noSuchPort
    · subst he
      exact fun _ h => nomatch h
    · rw [answerIllegal_consumer he]
      exact .onPort fun _ => .next (.respond c _ _ _ s)
  | producer ev d => exact .next (.of_out_eq rfl)
  | controller req => exact .onController (.next (.kRespond _ s))

/-- Presented words are answered on their port, operation or not. -/
theorem stepPresent_repliesTo (w : PortWords) (s : State) : RepliesTo (portOf w) s (stepPresent w s) := by
  unfold stepPresent
  cases hdec : decode s.params w with
  | ok i => exact portOf_encode_of_decode hdec ▸ exec_repliesTo i s
  | error e => exact answerIllegal_repliesTo w e s

/-- A turn begins with no event, so every answer that a step shows is to the agent that acted in it. -/
theorem actsIn_of_answered {s s' : State} {t : Turn} {rest : List Turn} (hin : s.inputs = t :: rest)
    (h : step s = .next s') {e : Event} (hmem : e ∈ s'.out) {g : Agent} (hg : answered e = some g) :
    ActsIn t.act g := by
  have of_replies : ∀ {b}, AnswersOnly b (beginTurn t rest s) s' → g = b := fun hb =>
    (hb e hmem).elim (fun hold => absurd hold List.not_mem_nil) fun honly => honly g hg
  rw [step_of_turn hin] at h
  cases ht : t.act with
  | reset =>
    rw [ht] at h
    cases h
    exact absurd hmem List.not_mem_nil
  | micro c =>
    rw [ht] at h
    rw [of_replies (microStep_repliesTo c _ s' h)]
    exact .inl rfl
  | present w =>
    rw [ht] at h
    rw [of_replies (stepPresent_repliesTo w _ s' h)]
    exact actsIn_present w

/-- Settles O54: each response answers the agent whose turn it was. -/
theorem answersGoOnlyToTheRequester : Obligations.AnswersGoOnlyToTheRequester := by
  intro s s' t rest hin hstep
  exact ⟨fun c r x hmem => actsIn_of_answered hin hstep hmem (g := .consumer c) rfl,
    fun r hmem => actsIn_of_answered hin hstep hmem (g := .controller) rfl⟩

end Sys2Proof.Machine
end

section
/-! The parameters (`spec/00_scope.md` section 4): the width that they give the pointers, and that no step
changes them (rule R4). -/

namespace Sys2Proof.Machine

open Sys2Proof

/-! ## The width of a pointer -/

/-- `PTR_BITS` bits hold every value below `PTR_MOD`. -/
theorem ptrMod_le_two_pow_ptrBits (p : Params) : p.ptrMod ≤ 2 ^ p.ptrBits :=
  calc p.ptrMod ≤ 2 ^ Nat.clog 2 p.ptrMod := Nat.le_pow_clog Nat.one_lt_two _
    _ ≤ 2 ^ p.ptrBits := Nat.pow_le_pow_right Nat.two_pos (Nat.le_max_right 1 _)

/-- Settles O9: rule R12 keeps both pointers below the modulus, which the width covers. -/
theorem pointersFitPtrBits : Obligations.PointersFitPtrBits := fun s hs =>
  ⟨hs.headLt.trans_le (ptrMod_le_two_pow_ptrBits s.params),
    hs.tailLt.trans_le (ptrMod_le_two_pow_ptrBits s.params)⟩

/-! ## No change of registers is a change of parameters -/

theorem SameRegisters.params {s t : State} (h : SameRegisters s t) : t.params = s.params := by
  obtain ⟨_, _, _, rfl, -⟩ := h
  rfl

theorem OpChange.params {s u : State} {i : Instr} (h : OpChange s i u) : u.params = s.params := by
  cases h with
  | unchanged | clear | startWait | defer | rxError => rfl
  | reconnect => rw [goOnline_eq]
  | popAt hpop =>
    obtain ⟨m, k, rfl⟩ := popAtPos_frame hpop
    rfl
  | rxFrame _ _ hpush =>
    obtain ⟨m, k, rfl⟩ := push_frame hpush
    rfl

theorem MicroChange.params {s u : State} {c : Nat} (h : MicroChange s c u) : u.params = s.params := by
  obtain ⟨m, k, ws, rfl⟩ := h.frame
  rfl

theorem TurnChange.params {t : Turn} {s u : State} (h : TurnChange t s u) : u.params = s.params := by
  obtain rfl | ⟨i, -, hop⟩ | ⟨c, hmicro⟩ := h
  · rfl
  · exact hop.params
  · exact hmicro.params

/-- Settles O20: the idle step and a reset keep the parameters by what they are, every other turn by the
changes it can make. -/
theorem parametersNeverChange : Obligations.ParametersNeverChange := by
  intro s s' hstep
  obtain ⟨-, rfl⟩ | ⟨t, rest, hin, haction⟩ := step_next s s' hstep
  · exact idleStep_params s
  by_cases hact : t.act = .reset
  · rw [hact] at haction
    cases haction
    rfl
  · obtain ⟨u, hu, hsame⟩ := step_changes hin hact hstep
    calc s'.params = u.params := hsame.params
      _ = (beginTurn t rest s).params := hu.params
      _ = s.params := beginTurn_params t rest s

end Sys2Proof.Machine
end

section
/-! Reset (`spec/10_state.md` section 8, `spec/70_reset_and_hazards.md` section 1): what it leaves, under every
set of parameters, and what a reset during a run does. -/

namespace Sys2Proof.Machine

open Sys2Proof

/-! ## What reset leaves -/

theorem phaseOf_resetWith_present {p : Params} {c : Nat} (hc : c < p.numConsumers) :
    phaseOf (State.resetWith p) c = some .idle :=
  phaseOf_eq_some.2 ⟨Waiter.reset, List.getElem?_replicate_of_lt hc, rfl⟩

theorem phaseOf_resetWith_absent {p : Params} {c : Nat} (hc : p.numConsumers ≤ c) :
    phaseOf (State.resetWith p) c = none :=
  Option.map_eq_none_iff.2 (List.getElem?_eq_none (List.length_replicate.trans_le hc))

theorem full_resetWith {p : Params} (hN : 1 ≤ p.cmdBufferSize) : (State.resetWith p).full = false :=
  decide_eq_false (Nat.ne_of_lt hN)

/-- Settles O12: a register has the value it is given at reset, and an output the one it derives from them;
the ring that is empty is not full, and the ports that exist are ready. -/
theorem resetLeavesTheStatedValues : Obligations.ResetLeavesTheStatedValues := by
  refine ⟨rfl, ?_⟩
  rintro p s rfl
  have hready : ∀ c, c < p.numConsumers →
      phaseOf (State.resetWith p) c = some .idle ∧ cReady (State.resetWith p) c = true := fun c hc =>
    have hidle := phaseOf_resetWith_present hc
    ⟨hidle, cReady_iff.2 hidle⟩
  exact ⟨rfl, rfl, rfl, rfl, rfl, full_resetWith, rfl, rfl, rfl, rfl, rfl, rfl, hready,
    fun _ => phaseOf_resetWith_absent, rfl, rfl, rfl, fun _ => rfl, rfl⟩

/-- Settles O13: a state that has just been reset is what a reset makes of it, and a reset gives an invariant
state. -/
theorem resetSatisfiesTheInvariant : Obligations.ResetSatisfiesTheInvariant := fun p hp =>
  have hreset : resetBlock (State.resetWith p) = State.resetWith p := rfl
  hreset ▸ inv_resetBlock (s := State.resetWith p) hp

/-! ## A reset during a run -/

/-- Settles O21: the turn is taken, and its action is the reset. -/
theorem resetDuringRunAbandonsEverything : Obligations.ResetDuringRunAbandonsEverything := by
  intro s t rest hin hact
  calc step s = stepAction .reset (beginTurn t rest s) := by rw [step_of_turn hin, hact]
    _ = .next (resetBlock (beginTurn t rest s)) := rfl

end Sys2Proof.Machine
end

section
/-! The words that the spec's vectors write out (`spec/95_test_vectors.md` B0), read by the decoder. -/

namespace Sys2Proof

section ConsumerWords

variable {p : Params} {c : Nat} {req : BitVec 104}

/-- CLEAR ignores its operands (rule R71). -/
theorem decode_clear (hc : c < p.numConsumers) (hrsv : reqRsv req = 0) (hop : reqOp req = 3) (d : Nat) :
    decode p (.consumer c req d) = .ok (.clear c) :=
  (decodeConsumer_present hc hrsv).trans (decodeOp_clear hop)

theorem decode_reservedOpcode (hc : c < p.numConsumers) (hrsv : reqRsv req = 0) (hop : 8 ≤ (reqOp req).toNat)
    (d : Nat) : decode p (.consumer c req d) = .error .reservedOpcode :=
  (decodeConsumer_present hc hrsv).trans (decodeOp_reserved hop)

theorem decode_reservedBits (hc : c < p.numConsumers) (hrsv : reqRsv req ≠ 0) (d : Nat) :
    decode p (.consumer c req d) = .error .reservedBits :=
  (if_pos hc).trans (if_neg hrsv)

end ConsumerWords

theorem decode_handleBits {p : Params} {req : BitVec 66} (hop : kReqOp req = 1)
    (hwide : ¬ handleFits p (kReqH req)) : decode p (.controller req) = .error .handleBits :=
  (decodeController_reconnect hop).trans (if_neg hwide)

/-- Settles O7: five words are encodings, CLEAR carries an operand that it ignores (rule R71), and each word
that is rejected breaks one clause of rule R74. -/
theorem writtenOutWordsDecode : Obligations.WrittenOutWordsDecode := by
  have hencoded := decodeOfEncodeIsTheOperation Params.vectors
  refine ⟨hencoded (.peek 0 2) rfl, hencoded (.popAt 0 2) rfl, ?clear, hencoded (.waitFor 0 7 100) rfl,
    ?opcode, ?bits, hencoded (.reconnect 0x2A) rfl, ?handle, hencoded .rxError rfl⟩
  case clear => exact decode_clear (by decide) rfl rfl 0
  case opcode => exact decode_reservedOpcode (by decide) rfl (by decide) 0
  case bits => exact decode_reservedBits (by decide) (by decide) 0
  case handle => exact decode_handleBits rfl (by decide)

end Sys2Proof
end
